-- ==== Sys2Proof/Word.lean ====
section
/-!
DEFINITION. The words of the package: a register is 32 bits (R4), memory is bytes, a slot is 64 bits
(R151), a flit is 256 bytes (R195).
-/

namespace Sys2Proof

abbrev Byte := BitVec 8
abbrev Word := BitVec 32
abbrev DWord := BitVec 64

end Sys2Proof
end

