-- ==== Sys2Proof/Syntax.lean ====
section
/-!
DEFINITION. The commands: one constructor of `Instr` for each row of spec/opcode_table.json, with
the row's operands. A slot row carries the site it issues on and the fields its encoding rule
gives; a host command the fields of R300; an event what it happens to and what the part observes.
-/

namespace Sys2Proof

/-- The kind of an agent of the control network, in the codes of R214. -/
inductive AgentKind where
  | keeper | mgmt | host | remote
  deriving DecidableEq, Repr

/-- An AGENT value of R214: a kind and, for host and remote, a tenant. -/
structure Agent where
  kind : AgentKind
  tenant : Nat
  deriving DecidableEq, Repr

/-- Where a slot issues: die, physical cluster (0 to 23) and context (0 to 15), R149. -/
structure Issue where
  die : Nat
  phys : Nat
  ctx : Nat
  deriving DecidableEq, Repr

/-- A stream slot (R77); `arr` is the slot kind less one. -/
structure StreamSlot where
  arr : Nat
  wfmt : Nat
  tb : Nat
  acc : Nat
  pa : Nat
  pb : Nat
  ps : Nat
  po : Nat
  nm1 : Nat
  accbase : Nat
  deriving DecidableEq, Repr

/-- A stationary-load slot (R74), OP apart. -/
structure LoadSlot where
  arr : Nat
  tb : Nat
  sfmt : Nat
  pa : Nat
  pb : Nat
  ps : Nat
  pitch : Nat
  deriving DecidableEq, Repr

/-- A converter SET slot (R104). -/
structure SetSlot where
  arr : Nat
  ofmt : Nat
  rnd : Nat
  ovm : Nat
  chm : Nat
  clipen : Nat
  psc : Nat
  pbi : Nat
  plo : Nat
  phi : Nat
  pix : Nat
  pso : Nat
  deriving DecidableEq, Repr

/-- A converter TLOAD slot (R104). -/
structure TloadSlot where
  arr : Nat
  pa : Nat
  km1 : Nat
  tbase : Nat
  deriving DecidableEq, Repr

/-- The arithmetic form of a vector slot (R124), OP apart; `core` is the slot kind less three. -/
structure VecSlot where
  core : Nat
  vd : Nat
  va : Nat
  vb : Nat
  vc : Nat
  pk : Nat
  sb : Nat
  pp : Nat
  row : Nat
  pair : Nat
  deriving DecidableEq, Repr

/-- The memory form of a vector slot (R125), OP apart. -/
structure VmemSlot where
  core : Nat
  vr : Nat
  pa : Nat
  fmt : Nat
  pk : Nat
  rnd : Nat
  ovm : Nat
  pix : Nat
  off : Nat
  deriving DecidableEq, Repr

/-- TOPK (R137). -/
structure TopkSlot where
  vc : Nat
  xb : Nat
  kfmt : Nat
  pa : Nat
  pib : Nat
  cm1 : Nat
  km1 : Nat
  outen : Nat
  po : Nat
  deriving DecidableEq, Repr

/-- IXLD (R137). -/
structure IxldSlot where
  vc : Nat
  xb : Nat
  pa : Nat
  deriving DecidableEq, Repr

/-- GATHER (R137). -/
structure GatherSlot where
  vc : Nat
  xb : Nat
  pw : Nat
  po : Nat
  pn : Nat
  gm1 : Nat
  nbm1 : Nat
  stride : Nat
  deriving DecidableEq, Repr

/-- SCATTER (R137). -/
structure ScatterSlot where
  vc : Nat
  pl : Nat
  ps : Nat
  po : Nat
  pm : Nat
  tm1 : Nat
  dm1 : Nat
  cm1 : Nat
  pf : Nat
  deriving DecidableEq, Repr

/-- A store slot (R170), OP apart. -/
structure StoreSlot where
  ps : Nat
  pd : Nat
  nm1 : Nat
  deriving DecidableEq, Repr

/-- A bulk slot (R172), OP apart. -/
structure BulkSlot where
  pa : Nat
  nm1 : Nat
  chk : Nat
  pq : Nat
  pda : Nat
  deriving DecidableEq, Repr

/-- A sync slot (R173), OP apart. -/
structure SyncSlot where
  flag : Nat
  remote : Nat
  tcl : Nat
  tdie : Nat
  tpkg : Nat
  pt : Nat
  scope : Nat
  deriving DecidableEq, Repr

/-- A parameter update (R164), OP apart. -/
structure ParamSlot where
  pd : Nat
  pa : Nat
  nm1 : Nat
  imm : Nat
  deriving DecidableEq, Repr

/-- The control word of LOOP (R156). -/
structure LoopWord where
  lc : Nat
  exitend : Nat
  target : Nat
  cm1 : Nat
  deriving DecidableEq, Repr

/-- The head of a host command: the issuing tenant, the SEQ of its CMD packet and its CMDTAG
(R285). -/
structure CmdHead where
  tenant : Nat
  seq : Nat
  tag : Nat
  deriving DecidableEq, Repr

/-- An aperture entry of OPEN (R310); BASE and SIZE count 4 KiB. -/
structure ApEntry where
  apt : Nat
  die : Nat
  cluster : Nat
  slice : Nat
  base : Nat
  size : Nat
  deriving DecidableEq, Repr

/-- The fields of OPEN (R300). -/
structure OpenArgs where
  tenant : Nat
  keyonly : Bool
  keyid : Nat
  key : BitVec 256
  flags : Nat
  barriers : Nat
  lwin : Nat
  dwin : Nat
  apertures : List ApEntry
  deriving DecidableEq, Repr

/-- The range fields of WRITE and READ (R300). -/
structure XferArgs where
  apt : Nat
  offset : Nat
  n : Nat
  tseq : Nat
  chkreq : Bool
  deriving DecidableEq, Repr

/-- One entry of PATCH (R300). -/
structure PatchEntry where
  cl : Nat
  reg : Nat
  value : Word
  deriving DecidableEq, Repr

/-- What another package of a partition answers over the control network at BIND (R332, R338, R316): the (board index,
slot) it stands at, the digests of the plate and of the BIND entry list with which the tenant is Bound, Armed or Halted
there, none where it is not, the digest of its schedule, whether it accepts the plate's catalogue, and the tenant's
apertures there. -/
structure PeerPlate where
  board : Nat
  slot : Nat
  bound : Option (BitVec 384 × BitVec 384)
  sched : BitVec 384
  accepts : Bool
  apertures : List ApEntry
  deriving DecidableEq, Repr

/-- An address of IPv6 or IPv4. -/
inductive IpAddr where
  | v6 (a : BitVec 128)
  | v4 (a : BitVec 32)
  deriving DecidableEq, Repr

/-- The addresses of a half (R391): the IPv6 global address, and the IPv4 address with its mask where there is one. -/
structure HalfAddr where
  v6 : BitVec 128
  v4 : Option (BitVec 32 × BitVec 32)
  deriving DecidableEq, Repr

/-- A frame as a half of the Ethernet port receives it: its bytes from the destination address to the FCS (R270), the FEC
symbols corrected in it and its uncorrectable codewords (R296). -/
structure PortFrame where
  half : Nat
  bytes : List Byte
  corrected : Nat
  uncor : Nat
  deriving DecidableEq, Repr

/-- What a PTP message carries (R272): a Sync with its origin time, which a two-step Sync gives only in its follow-up; that
follow-up; the time a Delay_Req was received. Times are the grandmaster's, in the counter's units (R51). -/
inductive PtpKind where
  | sync (twoStep : Bool) (t1 : DWord)
  | followUp (t1 : DWord)
  | delayResp (t4 : DWord)
  deriving DecidableEq, Repr

/-- A PTP message that a half receives: its transport in the codes of ETH_CTL PTPTR, its domain (R272). -/
structure PtpMessage where
  half : Nat
  transport : Nat
  domain : Nat
  kind : PtpKind
  deriving DecidableEq, Repr

/-- A sync entry of R238. -/
inductive SyncEntry where
  | flagop (tenant sslot beat op flag tcl tdie : Nat)
  | stamp (tenant sslot exp : Nat) (at_ : DWord)
  | halt (tenant sslot exp status : Nat)
  | reserved (type : Nat)
  deriving DecidableEq, Repr

/-- An unscheduled packet with its sideband fields (R203). -/
structure Packet where
  daddr : Nat
  op : Nat
  len : Nat
  trl : Bool
  ep : Nat
  vc : Nat
  tenant : Nat
  srcid : Nat
  spkg : Nat
  sdie : Nat
  tag : Nat
  status : Nat
  chk : Bool
  data : List Byte
  deriving DecidableEq, Repr

/-- A scheduled flit: the tenant whose plate sent it and its 256 bytes. The wire carries only the
class bit (R202); the tenant is the partition's, kept beside the bytes. -/
structure Flit where
  tenant : Nat
  data : List Byte
  deriving DecidableEq, Repr

/-- A link frame of 2,072 bytes (R244) as the receiver's FEC decoder hands it over: whether it has an uncorrectable codeword,
the most symbols corrected in one of its codewords (at most 15) and all of them (R242, R249). `resent` is the bulk slot in which the first
packet begins that answers a NAK: no bit of the frame says it (R249, notes/assumptions/119.md). -/
structure LinkFrame where
  bytes : List Byte
  uncor : Bool
  maxsym : Nat
  corrected : Nat
  resent : Option Nat
  deriving DecidableEq, Repr

/-- A link identity record (R261). -/
structure IdentRecord where
  serial : DWord
  port : Nat
  die : Nat
  slot : Nat
  vmin : Nat
  vmax : Nat
  trid : Word
  sid : DWord
  deriving DecidableEq, Repr

/-- Why a link leaves UP (R267, DETAIL of cause 0x40). -/
inductive LeaveWhy where
  | fecLock | twoFrames | oldNak
  deriving DecidableEq, Repr

/-- What a package reads of another listed package over the control network (R54, R258): its slot, its ROLE, the slots to
which its own bundles have an UP link, its PTP_LOCK. -/
structure PeerRole where
  slot : Nat
  role : Nat
  up : List Nat
  ptpLock : Bool
  deriving DecidableEq, Repr

/-- An ownership record (R391): the vendor pair and SVN it is signed under, and what it names. -/
structure OwnerRecord where
  vkey : Nat
  svn : Nat
  serial : DWord
  newOwner : BitVec 384
  rsaKey : List Byte
  slhKey : List Byte
  body : List Byte
  rsaSig : List Byte
  slhSig : List Byte
  deriving DecidableEq, Repr

/-- One entry of the plate signer set (R391). -/
structure Signer where
  signer : DWord
  rsaKey : List Byte
  slhKey : List Byte
  tenants : BitVec 256
  deriving DecidableEq, Repr

/-- The operator record (R391); its byte layout is not given by the spec. -/
structure OperatorRecord where
  rsaKey : List Byte
  slhKey : List Byte
  body : List Byte
  rsaSig : List Byte
  slhSig : List Byte
  wrappedKey : List Byte
  keyid : Nat
  octport : Nat
  addresses : List HalfAddr
  signers : List Signer
  fwmin : Nat
  portMode : Option Nat
  ownerChange : Option OwnerRecord
  deriving DecidableEq, Repr

/-- A vendor revocation notice (R391). -/
structure Revocation where
  vkey : Nat
  mask : Nat
  rsaKey : List Byte
  slhKey : List Byte
  body : List Byte
  rsaSig : List Byte
  slhSig : List Byte
  deriving DecidableEq, Repr

/-- An object the boot service supplies (R389). An image comes with the two public keys of its
VKEY. -/
inductive BootObject where
  | image (rsaKey slhKey image : List Byte)
  | operator (r : OperatorRecord)
  | revocation (r : Revocation)
  deriving DecidableEq, Repr

/-- What self-test finds of one slice: the failing rows and failing columns of each of its 32 banks, a bank not listed having
none (R189, R393). -/
structure SliceFinding where
  banks : List (Nat × Nat)
  deriving DecidableEq, Repr

/-- What self-test finds of one physical cluster (R393). -/
structure ClusterFinding where
  die : Nat
  phys : Nat
  coreOk : Bool
  routerOk : Bool
  slices : List SliceFinding
  monitorOk : Bool
  deriving DecidableEq, Repr

/-- The register a WRITE_window row names (R451). -/
inductive SeqWin where
  | lwin | dwin
  deriving DecidableEq, Repr

/-- A scale-out descriptor (R291). -/
structure ScaleDesc where
  dest : Nat
  apt : Nat
  off : Nat
  nfl : Nat
  flag : Nat
  tcl : Nat
  tdie : Nat
  deriving DecidableEq, Repr

/-- The commands, in the order of spec/opcode_table.json. -/
inductive Instr where
  -- commands of a tenant's host (R300)
  | hello (h : CmdHead) (session ackt : Nat)
  | openTenant (h : CmdHead) (a : OpenArgs)
  | close (h : CmdHead) (tenant : Nat)
  | write (h : CmdHead) (x : XferArgs) (segs : List (List Byte))
  | read (h : CmdHead) (x : XferArgs)
  | loadPlate (h : CmdHead) (apt offset len : Nat)
  | bind (h : CmdHead) (clusters packages : List (Nat × Nat)) (peers : List PeerPlate)
  | patch (h : CmdHead) (x : Nat) (entries : List PatchEntry)
  | arm (h : CmdHead)
  | launchAt (h : CmdHead) (time : DWord)
  | stop (h : CmdHead) (mode x : Nat)
  | query (h : CmdHead)
  | setWakeBudget (h : CmdHead) (ns : Nat) (pkg : Bool)
  | setPowerLimit (h : CmdHead) (watts : Nat)
  | setPowerState (h : CmdHead) (state : Nat)
  | setPowerSlice (h : CmdHead) (target die cluster slice : Nat)
  | attest (h : CmdHead) (nonce : List Byte)
  | topologyBoard (h : CmdHead) (apt offset len : Nat)
  | topologySystem (h : CmdHead) (apt offset len : Nat)
  | topologySchedule (h : CmdHead) (apt offset len : Nat)
  | epoch (h : CmdHead) (dies : Nat)
  -- slots and lines of a plate
  | scalarInstruction (at_ : Issue) (pos0 pos1 : Word)
  | stream (at_ : Issue) (f : StreamSlot)
  | stationaryLoadNormal (at_ : Issue) (f : LoadSlot)
  | stationaryLoadTransposed (at_ : Issue) (f : LoadSlot)
  | cnvSet (at_ : Issue) (f : SetSlot)
  | tload (at_ : Issue) (f : TloadSlot)
  | add (at_ : Issue) (f : VecSlot)
  | sub (at_ : Issue) (f : VecSlot)
  | mul (at_ : Issue) (f : VecSlot)
  | fma (at_ : Issue) (f : VecSlot)
  | max (at_ : Issue) (f : VecSlot)
  | min (at_ : Issue) (f : VecSlot)
  | exp (at_ : Issue) (f : VecSlot)
  | rcp (at_ : Issue) (f : VecSlot)
  | rsq (at_ : Issue) (f : VecSlot)
  | gelu (at_ : Issue) (f : VecSlot)
  | silu (at_ : Issue) (f : VecSlot)
  | rsum (at_ : Issue) (f : VecSlot)
  | rmax (at_ : Issue) (f : VecSlot)
  | smxi (at_ : Issue) (f : VecSlot)
  | smxs (at_ : Issue) (f : VecSlot)
  | smxn (at_ : Issue) (f : VecSlot)
  | rope (at_ : Issue) (f : VecSlot)
  | vld (at_ : Issue) (f : VmemSlot)
  | vst (at_ : Issue) (f : VmemSlot)
  | rtld (at_ : Issue) (f : VmemSlot)
  | copy (at_ : Issue) (f : StoreSlot)
  | fill (at_ : Issue) (f : StoreSlot)
  | d2s (at_ : Issue) (f : StoreSlot)
  | s2d (at_ : Issue) (f : StoreSlot)
  | send (at_ : Issue) (f : BulkSlot)
  | recv (at_ : Issue) (f : BulkSlot)
  | flagSet (at_ : Issue) (f : SyncSlot)
  | flagClr (at_ : Issue) (f : SyncSlot)
  | waits (at_ : Issue) (f : SyncSlot)
  | waitc (at_ : Issue) (f : SyncSlot)
  | flagCnt (at_ : Issue) (f : SyncSlot)
  | arrive (at_ : Issue) (f : SyncSlot)
  | topk (at_ : Issue) (f : TopkSlot)
  | ixld (at_ : Issue) (f : IxldSlot)
  | gather (at_ : Issue) (f : GatherSlot)
  | scatter (at_ : Issue) (f : ScatterSlot)
  | paramSet (at_ : Issue) (f : ParamSlot)
  | paramAddi (at_ : Issue) (f : ParamSlot)
  | mova (at_ : Issue) (f : ParamSlot)
  | loop (at_ : Issue) (w : LoopWord)
  | endProgram (at_ : Issue)
  | idleLine (at_ : Issue) (rep : Nat)
  -- sync network and time
  | waitComplete (at_ : Issue)
  | openWaitComplete (at_ : Issue)
  | waitTimeout (at_ : Issue)
  | remoteFlagApply (die phys : Nat)
  | barrierRelease (tenant barrier : Nat)
  | runComplete (tenant : Nat)
  | launchWakeStart (tenant : Nat)
  | gateAnnounce (tenant : Nat)
  | gateStart (region tenant : Nat)
  | exposureArrival (tenant : Nat)
  | stampReceive (tenant slot exp : Nat) (stamp : DWord)
  | regionBeatBegin (region : Nat) (badTag : Option Nat)
  | droopStretch (region monitor slack : Nat)
  | governorWindow (region smin monitor : Nat)
  | voltageGrant (region : Nat)
  | rateShortfall (tenant region span : Nat)
  | emergencyBegin (cause : Nat)
  | emergencyDutyStep
  | thermalTrip (die sensor : Nat)
  | railFault (rail : Nat) (noAck : Bool)
  | leaderChoice (peers : List PeerRole)
  | leaderTimeout (peers : List PeerRole)
  | ptpMessage (offset : PtpMessage)
  -- board links
  | linkSignalDetect (die link : Nat)
  | linkLock (die link : Nat) (laneSwapped : Bool) (ppm : Nat)
  | linkSignalTimeout (die link : Nat)
  | linkIdentEvaluate (die link : Nat) (r : IdentRecord)
  | linkIdentTimeout (die link : Nat)
  | linkLeaveUp (die link : Nat) (why : LeaveWhy)
  | linkRequeueTimeout (die link : Nat)
  | linkFrameReceive (die link : Nat) (f : LinkFrame)
  | linkSchedConsume (die link : Nat)
  | flagopReceive (die link : Nat)
  | haltReceive (die link : Nat)
  -- die networks
  | ephemerisSwitch (die phys : Nat) (parityError : Bool)
  | schedOriginCheck (die seq : Nat) (complete : Bool) (differs strayBeat : Bool)
  | unschedForward (die phys lane : Nat)
  | bnetWriteArrive (die phys : Nat)
  | bnetReadArrive (die phys : Nat)
  | bnetRdataArrive (die src : Nat)
  | bnetWdoneArrive (die src : Nat)
  | trailingRelease (die phys : Nat)
  | unschedSliceAccess (die phys slice : Nat)
  | epochFlip (die : Nat)
  | epochDrained (die : Nat)
  | epochDrainTimeout (die : Nat)
  -- slices
  | spadPwrWrite (a : Agent) (die cluster slice : Nat) (value : Word)
  | drainProbeArrive (die phys slice src : Nat)
  | sliceDrainComplete (die phys slice : Nat)
  | sliceDrainTimeout (die phys slice : Nat)
  | sliceCloseDone (die phys slice : Nat)
  | sliceOpenDone (die phys slice : Nat)
  | scrubRead (die phys slice : Nat)
  | scrubWriteback (die phys slice : Nat)
  -- register writes and reads with rows of their own
  | bnetEwdataHiWrite (a : Agent) (die cluster : Nat) (value : Word)
  | bnetRtdataWrite (a : Agent) (die cluster : Nat) (value : Word)
  | seqWinWrite (a : Agent) (die cluster : Nat) (w : SeqWin) (value : Word)
  | tenApLocWrite (a : Agent) (die : Nat) (value : Word)
  | tenApSizeWrite (a : Agent) (die : Nat) (value : Word)
  | ethCtlModeWrite (a : Agent) (value : Word)
  | clkGovWrite (a : Agent) (die : Nat) (value : Word)
  | lnkCtlRetrain (a : Agent) (die link : Nat)
  | lnkCtlEn (a : Agent) (die link : Nat) (en : Bool)
  | snetFopSet (a : Agent) (die cluster flag owner : Nat)
  | snetFopClr (a : Agent) (die cluster flag owner : Nat)
  | snetFopCnt (a : Agent) (die cluster flag owner : Nat)
  | registerWrite (a : Agent) (addr len : Nat) (value : Word × List Word)
  | readClear (a : Agent) (addr len : Nat)
  | timeSidLoRead (a : Agent) (die : Nat)
  | timeTBeatLoRead (a : Agent) (die : Nat)
  | mxaColsLoRead (a : Agent) (die cluster arr : Nat)
  | bnetEwdataLoRead (a : Agent) (die cluster : Nat)
  | bnetSflitLoRead (a : Agent) (die cluster : Nat)
  | lnkPserLoRead (a : Agent) (die link : Nat)
  | tenObsS0LoRead (a : Agent) (die : Nat)
  | pwrEnergyLoRead (a : Agent) (die : Nat)
  | kprMdataRead (a : Agent) (die : Nat)
  | fltRecRead (a : Agent) (die : Nat)
  | fltTRunRead (a : Agent) (die : Nat)
  | hostDwinWrite (a : Agent) (die cluster offset : Nat) (data : List Byte)
  | hostDwinRead (a : Agent) (die cluster offset len : Nat)
  -- command transport and Ethernet
  | octPacketReceive (p : PortFrame)
  | octRetransmit (tenant seq : Nat)
  | octWriteComplete (tenant : Nat)
  | octReadComplete (tenant : Nat)
  | scaleoutEgress (die : Nat)
  | scaleoutReceive (tenant : Nat) (d : ScaleDesc) (data : List Byte)
  | peerHaltReceive (tenant slot board exp status : Nat)
  | ethLinkDown (half : Nat)
  | ethRetrainDone (upA upB : Bool)
  -- power states
  | idleEnterPoised
  | idleEnterRetained
  | wakeExit
  | exitComplete (ns : Nat)
  -- sparing, schedule, firmware
  | sparingOccult (die phys trigger : Nat)
  | routerOut (die phys trigger : Nat)
  | obsSlotStart
  | scheduleEffect
  | almanacWatchdog
  | meridianWatchdog
  -- pins, references, First Light
  | pwrgdFall
  | resetAssert
  | resetRelease (straps : Nat)
  | refAonLoss
  | refEthLoss
  | refUlbLoss (die : Nat)
  | portModeSearch
  | bootreqTimeout
  | bootObjectReceive (o : BootObject)
  | selfTestComplete (findings : List ClusterFinding) (die1Ok : Bool) (railsOk : Bool)
  -- JTAG (R440)
  | tapReset
  | idcode
  | samplePreload
  | extest
  | clamp
  | highz
  | extestPulse
  | extestTrain
  | bypass
  -- further events
  | siderealCounterAdvance
  | linkFrameSend (die link : Nat)
  | linkSignalRetry (die link : Nat)
  | linkTransmitterRestart (die link : Nat)
  | entryComplete
  | emergencyEnd
  | vddAonLoss
  | pwrgdRise (straps : Nat)
  | refEthReturn
  | managementCoreException
  | arpNdEchoFrame (frame : PortFrame)
  deriving DecidableEq, Repr

end Sys2Proof
end

