-- ==== Sys2Proof/Decode.lean ====
section
/-!
DEFINITION. The commands that words of the table spell. No row of spec/opcode_table.json has bits: a
command reaches the package as an OCT packet, a register access, a slot of a plate, a link frame or
an event, and none of these is one word. So no word spells a command. (The slot words of a plate are
decoded by Machine/Words.lean, from the encodings of the numbered rules.)
-/

namespace Sys2Proof

/-- The command a table word spells: none, since no row gives bits. -/
def decodeTableWord (nbits w : Nat) : Option Instr :=
  match nbits, w with
  | _, _ => none

end Sys2Proof
end

