-- ==== Sys2Proof/Config.lean ====
section
/-!
DEFINITION. What the spec leaves to something outside it: the cryptographic functions it names by
their standards, the binary layouts it does not give, and the values it does not fix. Each is an
opaque constant: nothing can be proved about its value, so a claim holds whatever it is
(notes/assumptions 2, 3, 4, 5).
-/

namespace Sys2Proof.Config

/-- SHA-384 of a byte string, as the integer its 48 bytes spell, least significant byte first
(R327, R386, R400). Left uninterpreted: notes/assumptions/2.md. -/
opaque sha384 : List (BitVec 8) → BitVec 384

/-- RSASSA-PSS verification: public key, digest, signature (R328, R387, R391). -/
opaque rsaVerify : List (BitVec 8) → BitVec 384 → List (BitVec 8) → Bool

/-- SLH-DSA-SHA2-192s verification: public key, digest, signature (R328, R387, R391). -/
opaque slhVerify : List (BitVec 8) → BitVec 384 → List (BitVec 8) → Bool

/-- The signature DIK-S produces over a digest (R401). -/
opaque rsaSign : Nat → BitVec 384 → List (BitVec 8)

/-- The SLH-DSA-SHA2-192f signature DIK-Q produces over a digest (R401). -/
opaque slhSign : Nat → BitVec 384 → List (BitVec 8)

/-- The two vendor certificates of a part (R401), by serial and index. -/
opaque vendorCert : Nat → Nat → List (BitVec 8)

/-- AES-256-GCM (R278), opening: key, nonce, additional data, then the ciphertext with its 16-byte tag; none where the tag
fails. -/
opaque gcmOpen : BitVec 256 → BitVec 96 → List (BitVec 8) → List (BitVec 8) → Option (List (BitVec 8))

/-- AES-256-GCM (R278), sealing: key, nonce, additional data, payload; the ciphertext with its tag. -/
opaque gcmSeal : BitVec 256 → BitVec 96 → List (BitVec 8) → List (BitVec 8) → List (BitVec 8)

/-- RSAES-OAEP unwrapping of the tenant 0 key under DIK-T (R391); none when it fails. -/
opaque oaepUnwrap : Nat → List (BitVec 8) → Option (BitVec 256)

/-- The entropy source of R383: the n-th random word, used for SESSION identifiers (R389). -/
opaque entropy : Nat → BitVec 32

/-- The component the ROPE unit returns for (x, y, phase), before the bound of R129 is applied; the
spec promises only the bound (R129). `false` asks for x′, `true` for y′. -/
opaque ropeRaw : Bool → BitVec 32 → BitVec 32 → BitVec 32 → BitVec 32

/-- A correctly rounded function's result (R129) where the model's interval search ends undecided:
operation code of R126 and operand. -/
opaque roundUndecided : Nat → BitVec 32 → BitVec 32

/-- Values of no other place: the n-th fresh free word (State.fresh counts them). -/
opaque freeWord : Nat → BitVec 32

/-- Parsers of the layouts the spec does not give (notes/assumptions/3.md). A DECL section's
counts: number of aperture needs and of slice needs (R325). -/
opaque declCounts : List (BitVec 8) → Option (Nat × Nat)

/-- An EPHM section's number of tables and of route records, given PERIOD (R326). -/
opaque ephmCounts : Nat → List (BitVec 8) → Option (Nat × Nat)

/-- A FLAG section (R322): flag declarations (cluster, flag, TH, open, sharer, sharen) and barrier
declarations (number, scope, release flag, participants). -/
opaque flagSection : List (BitVec 8) →
  Option (List (Nat × Nat × Nat × Bool × Nat × Bool) × List (Nat × Nat × Nat × List Nat))

/-- An XOUT section (R291): plate-logical package of each destination index. -/
opaque xoutSection : List (BitVec 8) → Option (List Nat)

/-- A board topology record (R256, R436): for each listed link of a package (slot, die, die link)
its expected far end, none when unused; the pinned serials; the I/O slew entry. -/
opaque boardRecord : List (BitVec 8) →
  Option (List ((Nat × Nat × Nat) × Option (Nat × Nat × Nat)) × List (Nat × Nat) × Nat)

/-- A system record (R291, R294, R333): this package's board index, the acknowledgement time of PEER
sessions, and the (board index, slot) of every package it lists with its IP address. -/
opaque systemRecord : List (BitVec 8) → Option (Nat × Nat × List ((Nat × Nat) × IpAddr))

/-- The fixed delay of the port's PCS and FEC that a PTP timestamp is corrected for (R272); the spec gives no figure. -/
opaque portDelay : BitVec 64

/-- TIME_INCR after the time unit has disciplined it: the present increment and the measured offset in
1/65,536 ns. R52 gives the step of the discipline and no control law. -/
opaque disciplined : BitVec 32 → Int → BitVec 32

/-- The fixed delays of crossbar and station that LAT includes, in 1/65,536 ns (R253, R257); the spec gives no
figure. -/
opaque stationDelay : Nat

/-- The worst stamp delivery over a link of a measured delay, in ns (R49): measured at training. -/
opaque stampDelivery : Nat → Nat

end Sys2Proof.Config
end

