-- ==== Sys2Proof/Machine/Tab.lean ====
section
/-!
DEFINITION. Sparse tables: a list of (key, value) pairs with strictly rising keys and no entry that
equals the table's default. Every register file, memory, flag array and entry store of State is one.
-/

namespace Sys2Proof.Machine

/-- A sparse table. What an unlisted key reads as is the default its readers name. -/
abbrev Tab (α : Type) := List (Nat × α)

/-- The value at a key; the default where the table lists none. -/
def Tab.get {α : Type} (d : α) : Tab α → Nat → α
  | [], _ => d
  | (k, v) :: t, i => if i = k then v else Tab.get d t i

/-- Put a value at a key, keeping the keys rising. -/
def Tab.insert {α : Type} : Tab α → Nat → α → Tab α
  | [], i, v => [(i, v)]
  | (k, w) :: t, i, v =>
    if i < k then (i, v) :: (k, w) :: t
    else if i = k then (i, v) :: t
    else (k, w) :: Tab.insert t i v

/-- Remove a key. -/
def Tab.erase {α : Type} : Tab α → Nat → Tab α
  | [], _ => []
  | (k, w) :: t, i => if i = k then Tab.erase t i else (k, w) :: Tab.erase t i

/-- Write a value at a key: writing the default removes the entry. -/
def Tab.set {α : Type} [DecidableEq α] (d : α) (t : Tab α) (i : Nat) (v : α) : Tab α :=
  if v = d then Tab.erase t i else Tab.insert t i v

/-- Apply a function to the value at a key. -/
def Tab.modify {α : Type} [DecidableEq α] (d : α) (t : Tab α) (i : Nat) (f : α → α) : Tab α :=
  Tab.set d t i (f (Tab.get d t i))

/-- Write consecutive keys from `i` on. -/
def Tab.setRun {α : Type} [DecidableEq α] (d : α) : Tab α → Nat → List α → Tab α
  | t, _, [] => t
  | t, i, v :: vs => Tab.setRun d (Tab.set d t i v) (i + 1) vs

/-- Write a list of keys and values. -/
def Tab.putAll {α : Type} [DecidableEq α] (d : α) (t : Tab α) (es : List (Nat × α)) : Tab α :=
  es.foldl (fun t e => Tab.set d t e.1 e.2) t

/-- Read `n` consecutive keys from `i` on. -/
def Tab.getRun {α : Type} (d : α) (t : Tab α) (i n : Nat) : List α :=
  (List.range n).map fun j => Tab.get d t (i + j)

/-- Remove every key in [lo, hi). -/
def Tab.clearRange {α : Type} (t : Tab α) (lo hi : Nat) : Tab α :=
  t.filter fun e => e.1 < lo || hi ≤ e.1

/-- The keys rise strictly. -/
def Tab.rising {α : Type} : Tab α → Bool
  | [] => true
  | [_] => true
  | (k, _) :: (k', w) :: t => k < k' && Tab.rising ((k', w) :: t)

/-- The canonical form: rising keys, no default value listed. -/
def Tab.wf {α : Type} [DecidableEq α] (d : α) (t : Tab α) : Bool :=
  Tab.rising t && t.all fun e => e.2 ≠ d

/-- Add to a 32-bit event counter, saturating at 0xFFFF_FFFF (the RC counters of the spec). -/
def satAdd (c : Word) (n : Nat) : Word :=
  if c.toNat + n < 4294967296 then BitVec.ofNat 32 (c.toNat + n) else 0xFFFFFFFF

end Sys2Proof.Machine
end

