-- ==== Sys2Proof/Machine/State.lean ====
section
/-!
DEFINITION. The state of one package, as plain data. INVENTORY.md lists every piece with the rule
that names it. Registers that are neither selected per agent nor computed from the structures below
stand in `regs`, each under its own address (R9), reading as its reset value until written.
-/

namespace Sys2Proof.Machine

/-- The status codes of R303. -/
inductive Status where
  | ok | state | bounds | verify | auth | dark | late | fault | unsupported | busy
  deriving DecidableEq, Repr

/-- The tenant states of R298. -/
inductive TState where
  | closed | opened | loaded | bound | armed | running | halted
  deriving DecidableEq, Repr

/-- The package power states of R369. -/
inductive PState where
  | active | poised | retained | dark | off
  deriving DecidableEq, Repr

/-- The slice targets of SPAD_PWR TARGET (R194). -/
inductive SliceTarget where
  | off | ret | on
  deriving DecidableEq, Repr

/-- The slice states of R190. -/
inductive SliceSt where
  | off | opening | on | closing | ret
  deriving DecidableEq, Repr

/-- The link states of R260. -/
inductive LinkSt where
  | down | signal | ident | opened | up | spare | quar | retrain
  deriving DecidableEq, Repr

/-- The persistent material of R383 and what is fixed in silicon: grade and stepping codes of R1,
the identity record's contents (R384), the owner digest, FWMIN and revocation mask (R391). -/
structure Part where
  grade : Nat
  step : Nat
  romver : Nat
  serial : DWord
  macA : BitVec 48
  macB : BitVec 48
  owner : Option (BitVec 384)
  fwmin : Nat
  revoked : Nat
  vendor : Tab (BitVec 384)
  vf : Tab Nat
  recordOk : Bool
  recordGrade : Nat
  recordStep : Nat
  pufOk : Bool
  romDigest : BitVec 384
  recordDigest : BitVec 384
  die1Present : Bool
  deriving DecidableEq, Repr

/-- The lands of R434, the reference inputs of R432, the straps as read at stage ID (R437), the slew
codes of R436 and the AVSBus rails' last Voltage writes in mV (R364). -/
structure Pins where
  pwrgd : Bool
  resetN : Bool
  vddAon : Bool
  refAon : Bool
  refEth : Bool
  refUlb0 : Bool
  refUlb1 : Bool
  thermtrip : Bool
  pkgStat : Nat
  slot : Nat
  slewAvs : Nat
  slewTdo : Nat
  slewStat : Nat
  rail0 : Nat
  rail1 : Nat
  rail2 : Nat
  transition : Nat
  deriving DecidableEq, Repr

/-- The test access port (R440): the instruction register's code, the data the selected instruction
shifts out, and whether a boundary-scan instruction holds the package Off. -/
structure Tap where
  ir : Nat
  dataOut : Option Word
  holdsOff : Bool
  deriving DecidableEq, Repr

/-- First Light (R388, R389): the object wanted, the boot requests of it, the images accepted, the boot
session, the stage (0 ID, 1 NET, 2 FETCH, 3 START, 4 TEST, 5 FABRIC, 6 READY) and the error code. -/
structure Boot where
  want : Nat
  tries : Nat
  fails : Nat
  session : Nat
  requests : Nat
  lastRequest : DWord
  searchMode : Nat
  bootKey : Bool
  stage : Nat
  err : Nat
  meridianSvn : Nat
  almanacSvn : Nat
  ready : Bool
  entropyUsed : Nat
  deriving DecidableEq, Repr

/-- A parameter write not yet in effect (R163): the plate beat at whose end it lands, the register,
the value, the bits of it that are written (a scalar store may be narrower than the register), and
whether a kind 11 slot made it. -/
structure PWrite where
  due : Nat
  reg : Nat
  value : Word
  mask : Word
  update : Bool
  deriving DecidableEq, Repr

/-- A wait in progress (R223, R224): its tenant-relative flag, whether it waits for clear (WAITC),
whether it is open, its issue beat and timeout, and for an open wait whether its condition has
held. -/
structure Wait where
  flag : Nat
  clear : Bool
  opened : Bool
  issued : Nat
  timeout : Nat
  latch : Bool
  deriving DecidableEq, Repr

/-- An open RECV (R200): base, flits wanted, flits taken, the check request, its sequence
number and the running check value. -/
structure Recv where
  base : Nat
  n : Nat
  got : Nat
  chk : Bool
  tseq : Word
  issued : Nat
  crc : Word
  deriving DecidableEq, Repr

/-- A check record (R297). -/
structure ChkRec where
  tseq : Word
  val : Word
  nfl : Nat
  valid : Bool
  recv : Bool
  deriving DecidableEq, Repr

/-- The selection events of one operation (R148): places filled with NaN keys, entries out of range,
beyond capacity, dropped, with an invalid destination. -/
structure SelEvents where
  nanfill : Nat
  goor : Nat
  sovf : Nat
  sdrop : Nat
  sbad : Nat
  deriving DecidableEq, Repr

/-- A stationary tile bank (R66): element codes keyed 1,024 × token + channel, block scales keyed
32 × token + group. -/
structure Bank where
  valid : Bool
  fmt : Nat
  transposed : Bool
  elems : Tab Nat
  scales : Tab Nat
  deriving DecidableEq, Repr

/-- A converter setup as a SET latches it (R104): format, modes and the 32-bit values of the
registers it names. -/
structure CnvSetup where
  ofmt : Nat
  rnd : Bool
  ovm : Bool
  chm : Bool
  clip : Bool
  scale : Word
  bias : Word
  lo : Word
  hi : Word
  ix : Word
  ds : Word
  deriving DecidableEq, Repr

/-- A column between its chain and the accumulator stage (R78, R81, R95): its array and accumulator mode, the entry it
meets, its number in the stream, its sums, the setup the stream latched, where it is written, its scale byte's
place, the plate seed, and the converter's beats. -/
structure Column where
  arr : Nat
  acc : Nat
  entry : Nat
  n : Nat
  sums : List Word
  setup : CnvSetup
  po : Nat
  so : Nat
  seed : DWord
  conv : Nat
  deriving DecidableEq, Repr

/-- A column whose elements a feeder beat read and whose bank the pipeline reaches when they are usable (R72, R182): its
number in the stream, its 32 groups of element codes, its block scales, and where it is written. -/
structure Feed where
  slot : StreamSlot
  setup : CnvSetup
  n : Nat
  groups : List (List Nat)
  scales : List Nat
  po : Nat
  so : Int
  deriving DecidableEq, Repr

/-- A result on its way (R81, R126, R139, R142, R145, R160, R171): what it writes when its beat ends. -/
inductive Commit where
  | spad (off : Nat) (bytes : List Byte)
  | data (off : Nat) (bytes : List Byte) (store : Bool)
  | vreg (core reg : Nat) (ws : List Word)
  | row (core row : Nat) (m l : Word)
  | rope (core : Nat) (ws : List Word)
  | vflags (core : Nat) (flags : BitVec 4)
  | index (bank : Nat) (ws : List Word)
  | events (core : Nat) (ev : SelEvents)
  | placed (core placed fbused : Nat)
  | tile (arr bank fmt : Nat) (transposed first last : Bool) (elems scales : List (Nat × Nat))
  | mflags (arr : Nat) (flags : BitVec 4)
  | feed (w : Feed)
  | column (c : Column)
  | output (arr off : Nat) (bytes : List Byte) (scale : Option (Nat × Byte)) (flags : BitVec 4) (nans sats : Nat)
  | table (arr base : Nat) (entries : List (BitVec 64))
  | tableState (arr : Nat) (v : Word)
  | setupState (arr : Nat) (v : Word)
  | xreg (r : Nat) (v : Word)
  | check (r : ChkRec)
  | loop (w : LoopWord)
  | finish
  | idle (rep : Nat)
  deriving DecidableEq, Repr

/-- The operation of a slot that reads or writes over several beats. -/
inductive Work where
  | load (f : LoadSlot) (transposed : Bool)
  | stream (f : StreamSlot) (setup : CnvSetup)
  | tload (f : TloadSlot)
  | topk (f : TopkSlot)
  | gather (f : GatherSlot) (xs : List Word)
  | scatter (f : ScatterSlot) (fill : List (Nat × Nat))
  | store (op : Nat) (f : StoreSlot)
  | send (f : BulkSlot) (crc : Word)
  deriving DecidableEq, Repr

/-- A slot under way: its issue beat, its beats, the parameter registers as it read them (R154), its operation, and the
bytes it holds until the beat that uses them. -/
structure Task where
  issued : Nat
  beats : Nat
  params : Tab Word
  work : Work
  got : List Byte
  deriving DecidableEq, Repr

/-- A context of a sequencer (R149), with its share of the sync node (R218, R225) and of the check
unit (R297). `lineAt` is the plate beat on which the line at `word` issues; `jobs` are the slots under way and `commits` the results
due, each with the plate beat at whose end it lands. -/
structure Ctx where
  tenant : Nat
  valid : Bool
  lbase : Nat
  lsize : Nat
  dbase : Nat
  dsize : Nat
  word : Nat
  lineAt : Nat
  ended : Bool
  lc : Tab Nat
  armed : Tab Bool
  params : Tab Word
  pwrites : List PWrite
  jobs : List Task
  commits : List (Nat × Commit)
  held : Word
  pcoll : Word
  fbase : Nat
  fcount : Nat
  bbase : Nat
  bcount : Nat
  wait : Option Wait
  waitTable : List (Nat × Nat)
  tout : Word
  recv : Option Recv
  chkHead : Word
  chk : Tab ChkRec
  deriving DecidableEq, Repr

/-- A physical flag (R218). -/
structure Flag where
  s : Bool
  c : Nat
  th : Nat
  opened : Bool
  sharer : Nat
  sharen : Bool
  deriving DecidableEq, Repr

/-- The operations on a flag (R219, R220). -/
inductive FlagOp where
  | clr | cnt | set
  deriving DecidableEq, Repr

/-- A flag operation on its way (R221): where it is applied, by which plate, and the beat of that plate at
whose end it is applied; `loc` marks the own-cluster path and `host` an operation of SNET_FOP (R241). -/
structure FlagMsg where
  tenant : Nat
  host : Bool
  op : FlagOp
  flag : Nat
  due : Nat
  loc : Bool
  deriving DecidableEq, Repr

/-- A matrix array (R66, R67, R105): two banks, the accumulator keyed 32 × entry + lane, the channel table, the converter
setup, flags and counters, and the beats until which the feeder and the drain are taken. -/
structure Arr where
  bank0 : Bank
  bank1 : Bank
  acc : Tab Word
  table : Tab (BitVec 64)
  setup : Option CnvSetup
  cfg : Word
  tab : Word
  flags : BitVec 4
  cols : DWord
  nan : Word
  sat : Word
  feedUntil : Nat
  drainUntil : Nat
  deriving DecidableEq, Repr

/-- A vector core with its selection unit (R122, R131, R134, R148): registers keyed
128 × register + lane, softmax rows as (m, l), the rotary table. -/
structure VCore where
  vr : Tab Word
  rows : Tab (Word × Word)
  rope : Tab Word
  flags : BitVec 4
  nanfill : Word
  goor : Word
  sovf : Word
  sdrop : Word
  sbad : Word
  placed : Nat
  fbused : Nat
  selUntil : Nat
  deriving DecidableEq, Repr

/-- An unscheduled access at its slice (R181): the router lane and the source of this die it came by, the region beat on
which it reached the slice, and its packet. -/
structure Access where
  lane : Nat
  src : Nat
  at_ : Nat
  pkt : Packet
  deriving DecidableEq, Repr

/-- A scratchpad slice's own state (R185 to R192): power state and target, a held target, the drain with the beat of
its latest probe, the words with a correctable or uncorrectable error, the events of the command in progress that are
still to be recorded (word, uncorrectable), the scrubber, the accesses that wait for a port, the write that commits at
the end of the beat, one more than the latest beats on which unscheduled accesses used the read port and the write port
(R181), and the latest beat on which such a write committed. -/
structure Slice where
  st : SliceSt
  target : SliceTarget
  held : Option SliceTarget
  dto : Bool
  since : Nat
  fromOff : Bool
  probes : List Nat
  drained : Option Nat
  ce : List Nat
  ue : List Nat
  ueRows : List (Nat × DWord)
  eccLog : List (Nat × Bool)
  scrubRow : Nat
  scrubLast : Nat
  scrubFix : List Nat
  rows : Nat
  cols : Nat
  fail : Bool
  ceCount : Word
  ueCount : Word
  ueaddr : Nat
  darkCount : Word
  waiting : List Access
  landing : List Access
  probeAt : Nat
  readAt : Nat
  writeAt : Nat
  commitAt : Nat
  deriving DecidableEq, Repr

/-- The region beats on which scheduled traffic uses a slice port (R179): every `step`-th from the first. -/
structure PortUse where
  slice : Nat
  write : Bool
  first : Nat
  last : Nat
  step : Nat
  deriving DecidableEq, Repr

/-- A physical cluster (R14): core island and sync node. `running` is the context it runs (R314) and `occupant` the tenant
whose context last ran on it, whose core state it still holds. -/
structure Cluster where
  a0 : Arr
  a1 : Arr
  v0 : VCore
  v1 : VCore
  xb : Tab Word
  xbv : Nat
  spad : Tab Byte
  s0 : Slice
  s1 : Slice
  s2 : Slice
  s3 : Slice
  ports : List PortUse
  dport : List (Nat × Nat)
  lines : Tab Byte
  dsram : Tab Byte
  x : Tab Word
  ctxs : Tab Ctx
  flags : Tab Flag
  flagMsgs : List FlagMsg
  running : Option Nat
  occupant : Option Nat
  dwin : List (Nat × List Byte)
  deriving DecidableEq, Repr

/-- A scheduled flit at a router input: the lane, the tenant's plate beat on which it is there, the
flit, and whether a further flit collided with it. -/
structure FlitAt where
  lane : Nat
  beat : Nat
  flit : Flit
  deriving DecidableEq, Repr

/-- An unscheduled packet in a router: input lane, sub-channel 3 × VC + k (R205, R245), and the source
of this die (a SRCID of R203) through which it entered the die, and the physical cluster that the map in force named for
it on the beat it entered its first router (R27), 31 where it is none of this package. -/
structure Buffered where
  lane : Nat
  sub : Nat
  src : Nat
  phys : Nat
  pkt : Packet
  deriving DecidableEq, Repr

/-- A router (R195 to R211): ephemeris, what the loader wrote there, both routing-table versions keyed
128 × version + key, scheduled flits present or on their way, the beat after the last each tenant's entries
were followed on, unscheduled buffers, round-robin positions, what has reached its LOC port or station,
trailing packets and the fences that release them, what its sources have still to inject, entry parity errors in each
tenant's run, the last beat with an old-epoch flit, one more than the beat on which each output lane last carried an
unscheduled flit, and one more than the last beat counted in BNET_UWAIT. -/
structure Router where
  eph : Tab (BitVec 40)
  written : Tab (BitVec 40)
  rt : Tab (BitVec 5)
  flits : List FlitAt
  bufs : List Buffered
  switched : Tab Nat
  rrVc : Tab Nat
  rrIn : Tab Nat
  arrived : List Buffered
  trailing : List Buffered
  fences : List (Nat × Nat)
  outbox : List Buffered
  parity : Tab Nat
  quiet : Nat
  sentAt : Tab Nat
  waitedAt : Nat
  deriving DecidableEq, Repr

/-- A barrier entry of a die hub (R229). -/
structure Barrier where
  tenant : Nat
  number : Nat
  scope : Nat
  flag : Nat
  members : List Nat
  arrivedBy : List Nat
  last : Nat
  complete : Bool
  deriving DecidableEq, Repr

/-- A die's epoch and drain (R209, R210); `rewant` is a change of routes waiting for the drain. -/
structure Die where
  epoch : Bool
  flipAt : Option Nat
  draining : Bool
  drainFrom : Nat
  rewant : Bool
  deriving DecidableEq, Repr

/-- A sparing event whose map change waits for the end of an epoch drain (R27, R209, R414): the failed cluster, its
TOPO_PMAP state, the SEQ of its record, and the tenants it affects. -/
structure Sparing where
  die : Nat
  phys : Nat
  state : Nat
  seq : Word
  affected : List Nat
  deriving DecidableEq, Repr

/-- What a counter or a flag register took on a beat (R10): the beat, its value before that beat, and the events, or the
bits set, on it. -/
structure Recent where
  beat : Nat
  before : Word
  came : Word
  deriving DecidableEq, Repr

/-- A region (R18): its beat count, clock and monitors (R358 to R361). -/
structure Region where
  beat : Nat
  k : Nat
  lock : Bool
  gated : Bool
  pendUp : Bool
  smin : Nat
  snow : Nat
  mon : Nat
  stretches : Word
  holds : Word
  lholds : Word
  gholds : Word
  short : Word
  worst : Nat
  holdFrom : Option DWord
  monitorFailed : Bool
  ended : Bool
  stretched : Nat
  deriving DecidableEq, Repr

/-- A packet kept for resending over a link (R249): the frame it began in and the last that holds a slot of it. -/
structure Kept where
  frame : Nat
  last : Nat
  pkt : Packet
  deriving DecidableEq, Repr

/-- A board link (R260 to R269): `port` is the SerDes port the crossbar connects to this position, none for
its own (R257); `credits` counts credits used and `owed` credits to return, by sub-channel; `out` is the frame
last sent; `margins` the MAXSYM figures of the last 1 ms, 16 for an uncorrectable codeword. On the way out stand the slots
that the flit and the packet in progress still lack (R246), whether the next packet begun answers a NAK, and the entries that cross the
transit network until a plate beat (R252); on the way in the bytes of the flit and the packet in progress, and the frame received
last, with its time, which the next one's PCRC judges (R249). In training `ident` is the latest record, `identRow` how many
identical ones have come in a row, `exchanges` the timestamp exchanges, `dmax` the largest delay (R253, R260), and `skew` the
peer's counter less the own (R255). -/
structure Link where
  st : LinkSt
  reason : Nat
  ver : Nat
  swapin : Bool
  swapx : Bool
  remap : Bool
  lanesw : Bool
  en : Bool
  swappol : Bool
  peer : Option IdentRecord
  since : DWord
  retryAt : Option DWord
  retrains : List DWord
  lat : Nat
  latValid : Bool
  delay : Nat
  asym : Word
  port : Option Nat
  maxsym : Nat
  fecc : Word
  uncor : Word
  pcrc : Word
  rpl : Word
  retrain : Word
  fseq : Nat
  nak : Option Nat
  failRow : Nat
  credits : Tab Nat
  owed : Tab Nat
  txFlits : List (Nat × Flit)
  txPackets : List Packet
  txResend : List Packet
  txSync : List SyncEntry
  kept : List Kept
  keptSync : List (Nat × SyncEntry)
  skipping : Bool
  rxPackets : List Packet
  rxSched : List Flit
  rxSync : List SyncEntry
  peerBeat : Tab Nat
  t1 : DWord
  t2 : DWord
  t3 : DWord
  t4 : DWord
  rrTenant : Nat
  rrCredit : Nat
  out : Option LinkFrame
  txPart : Option (Nat × List (List Byte))
  txCont : List (List Byte)
  txResume : Bool
  txTransit : List (Nat × SyncEntry)
  rxPart : List Byte
  rxOpen : Option (Nat × Nat × List Byte)
  rxFrame : Option (LinkFrame × DWord)
  ident : Option IdentRecord
  identRow : Nat
  exchanges : Nat
  dmax : Nat
  skew : DWord
  framesOut : Nat
  leftAt : Option DWord
  margins : List (DWord × Nat)
  deriving DecidableEq, Repr

/-- An aperture (R310) and its key generation apart. -/
structure Aperture where
  apt : Nat
  die : Nat
  cluster : Nat
  slice : Nat
  base : Nat
  size : Nat
  valid : Bool
  deriving DecidableEq, Repr

/-- A grant of OPEN (R300, TEN_T_GRANT). -/
structure Grant where
  flags : Nat
  barriers : Nat
  lwin : Nat
  dwin : Nat
  deriving DecidableEq, Repr

/-- Where a datagram goes (R275): the address and the UDP port. -/
structure UdpEnd where
  ip : IpAddr
  port : Nat
  deriving DecidableEq, Repr

/-- A packet the device has sent and not yet seen acknowledged (R283): the half it last left on (R273), where it goes, and the
UDP payload of its datagram, which does not change (R275, R283). -/
structure TxPacket where
  seq : Nat
  type : Nat
  payload : List Byte
  sends : Nat
  sentAt : DWord
  half : Nat
  dest : Option UdpEnd
  wire : List Byte
  deriving DecidableEq, Repr

/-- An ACK as it left: the half, the packet it answers, whether it refuses it (R282), where it goes and its datagram. -/
structure AckPacket where
  half : Nat
  seq : Nat
  full : Bool
  dest : Option UdpEnd
  wire : List Byte
  deriving DecidableEq, Repr

/-- A session (R275, R276, R279 to R283): `heldOoo` holds packets out of order and `queue` those to be taken, each with its SEQ, its type
and its payload; `ackCtr` counts the ACKs sent; `half` and `src` are those of the last authenticated packet. -/
structure Session where
  id : Nat
  ackseq : Nat
  heldOoo : Tab (Nat × List Byte)
  queue : List (Nat × Nat × List Byte)
  txseq : Nat
  ackCtr : Nat
  unacked : List TxPacket
  acks : List AckPacket
  ackt : Nat
  lost : Bool
  half : Nat
  src : Option UdpEnd
  deriving DecidableEq, Repr

/-- An OCT transfer in progress (R287, R288): the command's head, its range, the next unit to issue, the
units unanswered, the units refused, the first unit that failed with its status, whether a segment did
not match, the bytes of the segments taken, how many they are, the units read and the segments of a READ already sent. -/
structure Xfer where
  head : CmdHead
  isWrite : Bool
  die : Nat
  cluster : Nat
  addr : Nat
  n : Nat
  tseq : Nat
  chk : Bool
  next : Nat
  waiting : List Nat
  refused : Nat
  firstBad : Option (Nat × Nat)
  anyFault : Bool
  anyDark : Bool
  bounds : Bool
  data : List Byte
  taken : Nat
  got : Tab (List Byte)
  sent : Nat
  deriving DecidableEq, Repr

/-- A scale-out message being written (R293): its number among those in progress, its descriptor, the
units unanswered, and whether any failed. -/
structure InMsg where
  id : Nat
  desc : ScaleDesc
  waiting : List Nat
  failed : Bool
  deriving DecidableEq, Repr

/-- A PEER session with the package at (board index, slot), and the DIR of the packets this package sends in it (R294). -/
structure PeerSession where
  board : Nat
  slot : Nat
  dir : Nat
  sess : Session
  deriving DecidableEq, Repr

/-- A plate the loader holds (R329): the image and its digest. -/
structure Plate where
  image : List Byte
  digest : BitVec 384
  deriving DecidableEq, Repr

/-- One bound cluster: the plate-logical cluster, its device-logical cluster with its die, the physical
cluster it stands at and the context it took (R333, R336). -/
structure Site where
  cl : Nat
  die : Nat
  logical : Nat
  phys : Nat
  ctx : Nat
  deriving DecidableEq, Repr

/-- What BIND placed (R333, R336): the cluster entries as given (die, device-logical cluster), the clusters bound,
the packages, the scale-out table (plate-logical packages by destination index, R291) the declared slices
(plate-logical cluster, slice; R325), the sync link of each die to each package of the board (slot, die, link; R252), and what the other packages answered. -/
structure Binding where
  entries : List (Nat × Nat)
  sites : List Site
  packages : List (Nat × Nat)
  xout : List Nat
  own : Nat
  scope : Nat
  exps : Nat
  explen : Nat
  lead : Nat
  pitch : Nat
  slices : List (Nat × Nat)
  syncLinks : List (Nat × Nat × Nat)
  rotating : Bool
  cat : Nat
  seed : DWord
  peers : List PeerPlate
  deriving DecidableEq, Repr

/-- A gate (R232): gate beat, earliest and final release time, and the longest foreign hold already
charged to each tenant (R235). -/
structure Gate where
  g : Nat
  smin : DWord
  s : Option DWord
  begun : List Nat
  late : Bool
  charged : Tab Nat
  deriving DecidableEq, Repr

/-- Where a run stands. -/
inductive Phase where
  | waitLaunch | inExposure | boundary
  deriving DecidableEq, Repr

/-- The flag summary of R415: counts in the order of R415 and the two flag ORs. -/
structure Summary where
  cnvNan : Word
  cnvSat : Word
  nanfill : Word
  goor : Word
  sovf : Word
  sdrop : Word
  sbad : Word
  pcoll : Word
  tout : Word
  mflags : BitVec 4
  vflags : BitVec 4
  deriving DecidableEq, Repr

/-- A halt on its way (R448): the beat h from which no slot issues, the status the run ends with, and
the record that ended it with its die in bit 31 (R417 FSEQ). -/
structure Halting where
  h : Nat
  status : Status
  fseq : Word
  deriving DecidableEq, Repr

/-- A run (R47, R48, R56) and its figures (R417). `beats` counts per region the plate beats it has
begun; a region in `done` has also ended the last of them. -/
structure Run where
  launch : DWord
  tlaunch : DWord
  phase : Phase
  exp : Nat
  gate : Option Gate
  beats : Tab Nat
  done : List Nat
  halting : Option Halting
  arrival : DWord
  stamps : List (Nat × Nat × DWord)
  stopAfter : Option Nat
  stopped : Bool
  late : Word
  exps : Word
  xwait : Word
  stretch : Word
  hold : Word
  fgate : Word
  short : Word
  rated : Bool
  emerg : Bool
  lockLoss : Bool
  energy0 : DWord
  energyExp : DWord
  emax : Nat
  emaxIdx : Nat
  summary : Summary
  ended : Bool
  tend : DWord
  deriving DecidableEq, Repr

/-- A tenant on the package (R298); `stopping` is a STOP that completes when the run has halted (R308), `opening` a session
whose HELLO has come and has not opened it (R279, notes/assumptions/122.md). -/
structure Tenant where
  st : TState
  keys : List (Nat × BitVec 256)
  keyid : Nat
  grant : Grant
  apertures : List Aperture
  plate : Option Plate
  binding : Option Binding
  run : Option Run
  record : List Word
  lastStatus : Status
  lastStopped : Bool
  staged : List (Nat × List PatchEntry)
  stopping : Option CmdHead
  budget : Word
  session : Option Session
  opening : Option Session
  xfer : Option Xfer
  inMsgs : List InMsg
  peers : List PeerSession
  chk : Word
  chkseq : Word
  deriving DecidableEq, Repr

/-- A fault record (R405). -/
structure FaultRec where
  cls : Nat
  cause : Nat
  die : Nat
  tenant : Option Nat
  phys : Nat
  supp : Nat
  seq : Nat
  sid : DWord
  beat : Nat
  exp : Nat
  detail : DWord
  deriving DecidableEq, Repr

/-- A die's FLT block (R408, R409, R419): the ring newest first, the last SEQ, the counters, the rate
limit's last times and suppressions keyed by cause and place, and the newest SEQ naming each tenant. -/
structure Flt where
  ring : List FaultRec
  head : Nat
  lost : Word
  worst : Nat
  cnt : Tab Word
  lastAt : Tab DWord
  supp : Tab Nat
  tlast : Tab Nat
  breaches : Nat
  deriving DecidableEq, Repr

/-- An observing schedule (R313): slot length, S0, and the owner of (slot × 48 + die × 24 + L),
0xFFFF for none. -/
structure Sched where
  nslot : Nat
  slotns : Nat
  s0 : DWord
  owner : Tab Nat
  digest : BitVec 384
  deriving DecidableEq, Repr

/-- The board topology record in force (R256): expected far ends keyed (slot × 2 + die) × 24 + link,
the pinned serials by slot, the slots it lists. -/
structure Board where
  far : List ((Nat × Nat × Nat) × Option (Nat × Nat × Nat))
  pins : List (Nat × Nat)
  slots : List Nat
  digest : BitVec 384
  deriving DecidableEq, Repr

/-- The system record in force (R291). -/
structure SysRec where
  board : Nat
  ackt : Nat
  packages : List ((Nat × Nat) × IpAddr)
  digest : BitVec 384
  deriving DecidableEq, Repr

/-- The Ethernet port and station (R270 to R274, R291, R292, R296): packets waiting to be injected, the
egress buffer, per tenant the flits its current message still lacks, those it holds and whether it is being discarded,
frames sent outside sessions with their halves, and the PTP exchange in progress: the origin and receive times of the last Sync,
whether its origin is still to follow, and the send time of the Delay_Req with its one-step form (R272). -/
structure Eth where
  dual : Bool
  upA : Bool
  upB : Bool
  ctl : Word
  octport : Nat
  addresses : List HalfAddr
  cnt : Tab Word
  inbox : List Packet
  egress : List Flit
  asm : Tab (Nat × Nat × Bool)
  frames : List (Nat × List Byte)
  ptpT1 : DWord
  ptpT2 : DWord
  ptpWaits : Bool
  ptpReq : Option (DWord × Bool)
  deriving DecidableEq, Repr

/-- The package's power control (R362, R369 to R382). -/
structure Power where
  st : PState
  moving : Bool
  target : PState
  deepest : Nat
  idleUs : Nat
  budgetPkg : Word
  limit : Nat
  now : Nat
  energy : DWord
  exits : Word
  wakelat : Nat
  wakeFrom : Nat
  emergs : Word
  emergency : Bool
  causes : Nat
  duty : Nat
  moveStart : DWord
  idleSince : DWord
  mv : Tab Nat
  ool : Tab Bool
  temp : Tab Int
  peak : Tab Int
  emergStep : DWord
  wakes : List Nat
  deriving DecidableEq, Repr

/-- The board's time (R51 to R55, R61): `phase` is how far the time has been seen past the last 25 MHz edge, in 1/64 of
its period (R52), and `farUp` the slots to which each listed package's own bundles are UP, as last read (R54, R258). -/
structure Clock where
  sid : DWord
  incr : Word
  role : Nat
  ptpEn : Bool
  lock : Bool
  ptpLock : Bool
  sysLock : Bool
  leader : Option Nat
  via : Bool
  conflict : Bool
  offset : Word
  xmin : Nat
  lastFseq0 : DWord
  leaderPtp : Bool
  phase : Nat
  farUp : Tab (List Nat)
  deriving DecidableEq, Repr

/-- Firmware (R397 to R400): the signer set, the measurements, Almanac's state. -/
structure Firmware where
  signers : List Signer
  meas : Tab (BitVec 384)
  verM : Word
  verA : Word
  almanacUp : Bool
  arest : Word
  mem : List Byte
  deriving DecidableEq, Repr

/-- How the last register or window access completed, and what it returned: the model's output of an
access (R8, R10, R215). -/
structure Reply where
  status : Status
  data : List Word
  deriving DecidableEq, Repr

/-- The package. `recent` keeps, by register, what came on the beat in progress; `fresh` counts the free values drawn,
`pending` is the queue of commands. -/
structure State where
  part : Part
  pins : Pins
  tap : Tap
  boot : Boot
  regs : Tab Word
  sel : Tab Word
  latch : Tab (List Word)
  recent : Tab Recent
  clock : Clock
  clusters : Tab Cluster
  routers : Tab Router
  barriers : List Barrier
  die0 : Die
  die1 : Die
  sparing : List Sparing
  regions : Tab Region
  links : Tab Link
  eth : Eth
  tenants : Tab Tenant
  sched : Option Sched
  nextSched : Option Sched
  slotNow : Nat
  board : Option Board
  sys : Option SysRec
  power : Power
  flt0 : Flt
  flt1 : Flt
  fw : Firmware
  reply : Reply
  fresh : Nat
  pending : List Instr
  deriving DecidableEq, Repr

/-- The package has no stop of its own: no command ends in a fault. Declared for the interface;
raised by nobody (safe). -/
inductive Fault where
  | none_
  deriving DecidableEq, Repr

/-- Why a command has no meaning. -/
inductive Refusal where
  /-- An arm not written yet; raised by Dispatch alone (safe). -/
  | notModelled (mnemonic : String)
  deriving DecidableEq, Repr

/-- A flag after BIND's default and at reset: clear, TH 1, closed, no sharer (R218, R240). -/
def Flag.init : Flag := { s := false, c := 0, th := 1, opened := false, sharer := 0, sharen := false }

def Bank.init : Bank := { valid := false, fmt := 0, transposed := false, elems := [], scales := [] }

def Arr.init : Arr :=
  { bank0 := Bank.init, bank1 := Bank.init, acc := [], table := [], setup := none, cfg := 0, tab := 0,
    flags := 0, cols := 0, nan := 0, sat := 0, feedUntil := 0, drainUntil := 0 }

def VCore.init : VCore :=
  { vr := [], rows := [], rope := [], flags := 0, nanfill := 0, goor := 0, sovf := 0, sdrop := 0,
    sbad := 0, placed := 0, fbused := 0, selUntil := 0 }

/-- A slice at reset: OFF, TARGET OFF (R194). -/
def Slice.init : Slice :=
  { st := .off, target := .off, held := none, dto := false, since := 0, fromOff := true, probes := [],
    drained := none, ce := [], ue := [], ueRows := [], eccLog := [], scrubRow := 0, scrubLast := 0, scrubFix := [],
    rows := 0, cols := 0, fail := false, ceCount := 0, ueCount := 0, ueaddr := 0, darkCount := 0,
    waiting := [], landing := [], probeAt := 0, readAt := 0, writeAt := 0, commitAt := 0 }

def Ctx.init : Ctx :=
  { tenant := 0, valid := false, lbase := 0, lsize := 0, dbase := 0, dsize := 0, word := 0, lineAt := 0,
    ended := false, lc := [], armed := [], params := [], pwrites := [], jobs := [], commits := [], held := 0, pcoll := 0,
    fbase := 0, fcount := 0, bbase := 0, bcount := 0, wait := none, waitTable := [], tout := 0,
    recv := none, chkHead := 0, chk := [] }

def ChkRec.init : ChkRec := { tseq := 0, val := 0, nfl := 0, valid := false, recv := false }

def Cluster.init : Cluster :=
  { a0 := Arr.init, a1 := Arr.init, v0 := VCore.init, v1 := VCore.init, xb := [], xbv := 0, spad := [],
    s0 := Slice.init, s1 := Slice.init, s2 := Slice.init, s3 := Slice.init, ports := [], dport := [],
    lines := [], dsram := [], x := [], ctxs := [], flags := [], flagMsgs := [], running := none, occupant := none,
    dwin := [] }

def Router.init : Router :=
  { eph := [], written := [], rt := [], flits := [], bufs := [], switched := [], rrVc := [], rrIn := [],
    arrived := [], trailing := [], fences := [], outbox := [], parity := [], quiet := 0, sentAt := [],
    waitedAt := 0 }

def Die.init : Die := { epoch := false, flipAt := none, draining := false, drainFrom := 0, rewant := false }

def Region.init : Region :=
  { beat := 0, k := 0, lock := false, gated := false, pendUp := false, smin := 0, snow := 0, mon := 0,
    stretches := 0, holds := 0, lholds := 0, gholds := 0, short := 0, worst := 0, holdFrom := none,
    monitorFailed := false, ended := false, stretched := 0 }

/-- A link at reset: DOWN with EN 1 (R269). -/
def Link.init : Link :=
  { st := .down, reason := 0, ver := 0, swapin := false, swapx := false, remap := false, lanesw := false,
    en := true, swappol := false, peer := none, since := 0, retryAt := none, retrains := [], lat := 0,
    latValid := false, delay := 0, asym := 0, port := none, maxsym := 0, fecc := 0, uncor := 0, pcrc := 0,
    rpl := 0, retrain := 0, fseq := 0, nak := none, failRow := 0, credits := [], owed := [],
    txFlits := [], txPackets := [], txResend := [], txSync := [], kept := [], keptSync := [], skipping := false, rxPackets := [], rxSched := [],
    rxSync := [], peerBeat := [], t1 := 0, t2 := 0, t3 := 0, t4 := 0, rrTenant := 0, rrCredit := 0,
    out := none, txPart := none, txCont := [], txResume := false, txTransit := [], rxPart := [], rxOpen := none, rxFrame := none,
    ident := none, identRow := 0, exchanges := 0, dmax := 0, skew := 0, framesOut := 0, leftAt := none, margins := [] }

def Grant.init : Grant := { flags := 0, barriers := 0, lwin := 0, dwin := 0 }

/-- A tenant at reset: Closed, with no wake budget set (R298, R382). -/
def Tenant.init : Tenant :=
  { st := .closed, keys := [], keyid := 0, grant := Grant.init, apertures := [], plate := none,
    binding := none, run := none, record := [], lastStatus := .ok, lastStopped := false, staged := [], stopping := none,
    budget := 0xFFFFFFFF, session := none, opening := none, xfer := none, inMsgs := [], peers := [], chk := 0, chkseq := 0 }

/-- FLT at reset: no record, WORST 0b111 (R420). -/
def Flt.init : Flt :=
  { ring := [], head := 0, lost := 0, worst := 7, cnt := [], lastAt := [], supp := [], tlast := [],
    breaches := 0 }

/-- The part the model is reset on: a T40 of stepping A1 with a good identity record, a blank owner
and every V(F) at 700 mV (notes/assumptions/6.md). -/
def Part.init : Part :=
  { grade := 0x40, step := 0xA1, romver := 0, serial := 0, macA := 0, macB := 0, owner := none, fwmin := 0,
    revoked := 0, vendor := [], vf := [], recordOk := true, recordGrade := 0x40, recordStep := 0xA1,
    pufOk := true, romDigest := 0, recordDigest := 0, die1Present := true }

def Pins.init : Pins :=
  { pwrgd := true, resetN := true, vddAon := true, refAon := true, refEth := true, refUlb0 := true,
    refUlb1 := true, thermtrip := false, pkgStat := 6, slot := 0, slewAvs := 0, slewTdo := 0,
    slewStat := 0, rail0 := 0, rail1 := 0, rail2 := 0, transition := 0 }

def Eth.init : Eth :=
  { dual := false, upA := false, upB := false, ctl := 0, octport := 0x4B0E, addresses := [], cnt := [], inbox := [],
    egress := [], asm := [], frames := [], ptpT1 := 0, ptpT2 := 0, ptpWaits := false, ptpReq := none }

/-- Power at reset: the registers' reset values (R382); the package is not yet Off and not yet
Active: PWR_STATE reads Active (0), with no region clock locked. -/
def Power.init : Power :=
  { st := .active, moving := false, target := .active, deepest := 2, idleUs := 100,
    budgetPkg := 0xFFFFFFFF, limit := 950, now := 0, energy := 0, exits := 0, wakelat := 0, wakeFrom := 0,
    emergs := 0, emergency := false, causes := 0, duty := 0, moveStart := 0, idleSince := 0, mv := [],
    ool := [], temp := [], peak := [], emergStep := 0, wakes := [] }

def Clock.init : Clock :=
  { sid := 0, incr := 0x00280000, role := 0, ptpEn := true, lock := false, ptpLock := false,
    sysLock := false, leader := none, via := false, conflict := false, offset := 0, xmin := 0xFFFF,
    lastFseq0 := 0, leaderPtp := false, phase := 0, farUp := [] }

def Boot.init : Boot :=
  { want := 1, tries := 0, fails := 0, session := 0, requests := 0, lastRequest := 0, searchMode := 0,
    bootKey := true, stage := 0, err := 0, meridianSvn := 0, almanacSvn := 0, ready := false, entropyUsed := 0 }

def Firmware.init : Firmware :=
  { signers := [], meas := [], verM := 0, verA := 0, almanacUp := false, arest := 0, mem := [] }

/-- A cold start on a given part with given straps (R430, R388): every field at its reset value, First
Light at stage ID. -/
def State.cold (part : Part) (pins : Pins) : State :=
  { part := part, pins := pins, tap := { ir := 1, dataOut := none, holdsOff := false }, boot := Boot.init,
    regs := [], sel := [], latch := [], recent := [], clock := Clock.init, clusters := [], routers := [],
    barriers := [], die0 := Die.init, die1 := Die.init, sparing := [], regions := [], links := [], eth := Eth.init,
    tenants := [], sched := none, nextSched := none, slotNow := 0, board := none, sys := none,
    power := { Power.init with limit := if part.grade = 0x48 then 1100 else 950 },
    flt0 := Flt.init, flt1 := Flt.init, fw := Firmware.init, reply := { status := .ok, data := [] },
    fresh := 0, pending := [] }

/-- The package right after RESET_N is released: First Light begins at stage ID (R388). -/
def State.reset : State := State.cold Part.init Pins.init

end Sys2Proof.Machine
end

