-- ==== Sys2Proof/Machine/Ops.lean ====
section
/-!
DEFINITION. The named operations every meaning is built from: reaching a cluster, router, region, link or
tenant; the topology maps; time; apertures; fault records (R403 to R409), notes (R410), and the halting
of a run (R448).
-/

namespace Sys2Proof.Machine

/-- The answer of a command: the next state. No command touches the queue or what is fixed in silicon,
but for the commands of First Light that write fuses (`doneFused`). -/
def done (s t : State) : Host.Outcome State Fault Refusal :=
  .next { t with pending := s.pending, part := s.part }

/-- The answer of a command that may write fuses (R391): the queue alone is kept. -/
def doneFused (s t : State) : Host.Outcome State Fault Refusal :=
  .next { t with pending := s.pending }

/-! Codes. -/

def Status.code : Status → Nat
  | .ok => 0 | .state => 1 | .bounds => 2 | .verify => 3 | .auth => 4 | .dark => 5 | .late => 6
  | .fault => 7 | .unsupported => 8 | .busy => 9

def TState.code : TState → Nat
  | .closed => 0 | .opened => 1 | .loaded => 2 | .bound => 3 | .armed => 4 | .running => 5 | .halted => 6

def PState.code : PState → Nat
  | .active => 0 | .poised => 1 | .retained => 2 | .dark => 3 | .off => 4

/-- The status code of a byte; the codes of R303 above 9 name none. -/
def Status.ofCode (n : Nat) : Status :=
  match n with
  | 0 => .ok | 1 => .state | 2 => .bounds | 3 => .verify | 4 => .auth | 5 => .dark | 6 => .late
  | 7 => .fault | 8 => .unsupported | 9 => .busy | _ => .fault

/-! Places. -/

/-- Key of a physical cluster or its router; 24 per die (R21). -/
def clKey (die phys : Nat) : Nat := die * 24 + phys

/-- Key of a region: die × 4 + row; row = physical cluster / 6 (R21). -/
def regionKey (die phys : Nat) : Nat := die * 4 + phys / 6

def linkKey (die link : Nat) : Nat := die * 24 + link

def State.cluster (s : State) (die phys : Nat) : Cluster := Tab.get Cluster.init s.clusters (clKey die phys)

def State.setCluster (s : State) (die phys : Nat) (c : Cluster) : State :=
  { s with clusters := Tab.set Cluster.init s.clusters (clKey die phys) c }

def State.router (s : State) (die phys : Nat) : Router := Tab.get Router.init s.routers (clKey die phys)

def State.setRouter (s : State) (die phys : Nat) (r : Router) : State :=
  { s with routers := Tab.set Router.init s.routers (clKey die phys) r }

def State.region (s : State) (r : Nat) : Region := Tab.get Region.init s.regions r

def State.setRegion (s : State) (r : Nat) (x : Region) : State :=
  { s with regions := Tab.set Region.init s.regions r x }

def State.link (s : State) (die l : Nat) : Link := Tab.get Link.init s.links (linkKey die l)

def State.setLink (s : State) (die l : Nat) (x : Link) : State :=
  { s with links := Tab.set Link.init s.links (linkKey die l) x }

def State.tenant (s : State) (t : Nat) : Tenant := Tab.get Tenant.init s.tenants t

def State.setTenant (s : State) (t : Nat) (x : Tenant) : State :=
  { s with tenants := Tab.set Tenant.init s.tenants t x }

def State.dieOf (s : State) (d : Nat) : Die := if d = 0 then s.die0 else s.die1

def State.setDie (s : State) (d : Nat) (x : Die) : State :=
  if d = 0 then { s with die0 := x } else { s with die1 := x }

def State.flt (s : State) (d : Nat) : Flt := if d = 0 then s.flt0 else s.flt1

def State.setFlt (s : State) (d : Nat) (x : Flt) : State :=
  if d = 0 then { s with flt0 := x } else { s with flt1 := x }

def Cluster.ctx (c : Cluster) (n : Nat) : Ctx := Tab.get Ctx.init c.ctxs n

def Cluster.setCtx (c : Cluster) (n : Nat) (x : Ctx) : Cluster :=
  { c with ctxs := Tab.set Ctx.init c.ctxs n x }

def Cluster.arr (c : Cluster) (a : Nat) : Arr := if a = 0 then c.a0 else c.a1

def Cluster.setArr (c : Cluster) (a : Nat) (x : Arr) : Cluster :=
  if a = 0 then { c with a0 := x } else { c with a1 := x }

def Cluster.vcore (c : Cluster) (v : Nat) : VCore := if v = 0 then c.v0 else c.v1

def Cluster.setVcore (c : Cluster) (v : Nat) (x : VCore) : Cluster :=
  if v = 0 then { c with v0 := x } else { c with v1 := x }

def Cluster.slice (c : Cluster) (i : Nat) : Slice :=
  match i with
  | 0 => c.s0 | 1 => c.s1 | 2 => c.s2 | _ => c.s3

def Cluster.setSlice (c : Cluster) (i : Nat) (x : Slice) : Cluster :=
  match i with
  | 0 => { c with s0 := x } | 1 => { c with s1 := x } | 2 => { c with s2 := x } | _ => { c with s3 := x }

def Arr.bank (a : Arr) (b : Nat) : Bank := if b = 0 then a.bank0 else a.bank1

def Arr.setBank (a : Arr) (b : Nat) (x : Bank) : Arr :=
  if b = 0 then { a with bank0 := x } else { a with bank1 := x }

/-! Registers kept under their own address (R9). -/

/-- The site of a die block, beside the 24 clusters of a die. -/
def dieSite (die : Nat) : Nat := die * 32 + 31

def clSite (die phys : Nat) : Nat := die * 32 + phys

def regKey (site off : Nat) : Nat := site * 2 ^ 20 + off

def State.reg (s : State) (site off : Nat) (reset : Word) : Word := Tab.get reset s.regs (regKey site off)

def State.setReg (s : State) (site off : Nat) (reset v : Word) : State :=
  { s with regs := Tab.set reset s.regs (regKey site off) v }

/-! Events and accesses on one beat (R10). -/

/-- The beat of the furthest region. -/
def State.topBeat (s : State) : Nat := s.regions.foldl (fun m e => if m < e.2.beat then e.2.beat else m) 0

/-- The beat in progress at a site: that of a cluster's region, or the furthest for a die block. -/
def State.siteBeat (s : State) (site : Nat) : Nat :=
  if site % 32 = 31 then s.topBeat else (s.region (site / 32 * 4 + site % 32 / 6)).beat

def Recent.none_ : Recent := { beat := 0, before := 0, came := 0 }

/-- Keep what comes to a register on the beat in progress apart from what it held before that beat; `join` adds to what
came on the beat already. -/
def State.note (s : State) (site off : Nat) (before x : Word) (join : Word → Word → Word) : State :=
  let k := regKey site off
  let now := s.siteBeat site + 1
  let e := Tab.get Recent.none_ s.recent k
  let e' : Recent := if e.beat = now then { e with came := join e.came x } else { beat := now, before := before, came := x }
  { s with recent := Tab.set Recent.none_ s.recent k e' }

/-- Events of a counter on the beat in progress. -/
def State.noteCount (s : State) (site off : Nat) (before : Word) (n : Nat) : State :=
  s.note site off before (satAdd 0 n) fun x y => satAdd x y.toNat

/-- A clearing read of an RC field (R10): what it returns, and the state in which the field holds what came on the beat of
the read. `put` stores the field and `none_` is its cleared value. -/
def State.clearRc (s : State) (site off : Nat) (cur none_ : Word) (put : State → Word → State) : State × Word :=
  let k := regKey site off
  let e := Tab.get Recent.none_ s.recent k
  if e.beat = s.siteBeat site + 1 then
    (put { s with recent := Tab.set Recent.none_ s.recent k { e with before := none_ } } e.came, e.before)
  else (put s none_, cur)

/-- A clearing read of a counter kept as a register of its own. -/
def State.clearReg (s : State) (site off : Nat) : State × Word :=
  s.clearRc site off (s.reg site off 0) 0 fun s v => s.setReg site off 0 v

/-- The bits of a W1C field that a write may not clear: those that hardware has set on the beat in progress (R10). -/
def State.justSet (s : State) (site off : Nat) : Word :=
  let e := Tab.get Recent.none_ s.recent (regKey site off)
  if e.beat = s.siteBeat site + 1 then e.came else 0

/-- A register of a link, by its offset in the die block (R9). -/
def lnkOff (link o : Nat) : Nat := 0x2000 + 0x100 * link + o

/-- A register of SNET shown for one context, kept apart from the same register of the others. -/
def ctxOff (off ctx : Nat) : Nat := off + 0x10000 * ctx

/-- Events of one of a link's counters on the beat in progress. -/
def State.noteLink (s : State) (die link o : Nat) (before : Word) (n : Nat) : State :=
  s.noteCount (dieSite die) (lnkOff link o) before n

/-- The greater of two values of a register. -/
def wordMax (x y : Word) : Word := if x.ult y then y else x

/-- A temperature in the 12 bits of PWR_THERM. -/
def tempBits (t : Int) : Nat := (t % 4096).toNat

/-- TOPO_LMAP[L] of a die (R38). -/
def State.lmap (s : State) (die l : Nat) : Word := s.reg (dieSite die) (0x9040 + 4 * l) 0x1F

/-- TOPO_PMAP[P] of a die (R38). -/
def State.pmap (s : State) (die p : Nat) : Word := s.reg (dieSite die) (0x90C0 + 4 * p) 0x1F

def State.setLmap (s : State) (die l : Nat) (v : Word) : State :=
  s.setReg (dieSite die) (0x9040 + 4 * l) 0x1F v

def State.setPmap (s : State) (die p : Nat) (v : Word) : State :=
  s.setReg (dieSite die) (0x90C0 + 4 * p) 0x1F v

def bitsOf (w : Word) (lo n : Nat) : Nat := w.toNat / 2 ^ lo % 2 ^ n

/-- The physical cluster a logical number is bound to; none when it is absent (R26). -/
def State.physOf (s : State) (die l : Nat) : Option Nat :=
  if l < 24 && (s.lmap die l).getLsbD 31 then some (bitsOf (s.lmap die l) 0 5) else none

/-- The logical cluster of a physical one. -/
def State.logOf (s : State) (die p : Nat) : Option Nat :=
  let l := bitsOf (s.pmap die p) 0 5
  if l < 24 then some l else none

/-- TOPO_PMAP STATE: 0 active, 1 spare, 2 router out of service, 3 occulted. -/
def State.pstate (s : State) (die p : Nat) : Nat := bitsOf (s.pmap die p) 8 2

def State.topoGen (s : State) (die : Nat) : Word := s.reg (dieSite die) 0x9008 0

/-- R30: one-way distance between two physical clusters. -/
def oneWay (dieA pa dieB pb : Nat) : Nat :=
  let ra := pa / 6
  let ca := pa % 6
  let rb := pb / 6
  let cb := pb % 6
  let dr := if ra ≤ rb then rb - ra else ra - rb
  let dc := if ca ≤ cb then cb - ca else ca - cb
  if dieA = dieB then 2 * (dr + dc) + 4 * dr
  else 2 * (5 - ca) + 8 + 2 * (dr + 5 - cb) + 4 * dr

/-! Sidereal time (R51, R55): units of 1/65,536 ns. -/

def nsUnits (n : Nat) : DWord := BitVec.ofNat 64 (n * 65536)

/-- Strictly after, modulo 2^64. -/
def laterThan (x y : DWord) : Bool := x ≠ y && (x - y).toNat < 2 ^ 63

/-- At or after, modulo 2^64 (R55). -/
def reached (x y : DWord) : Bool := (x - y).toNat < 2 ^ 63

/-- At least `n` ns have passed since `since`. -/
def State.elapsed (s : State) (since : DWord) (n : Nat) : Bool := reached s.clock.sid (since + nsUnits n)

/-! Apertures (R310, R311). -/

def sliceBytes : Nat := 16777216

def Aperture.lo (a : Aperture) : Nat := a.slice * sliceBytes + a.base * 4096

def Aperture.hi (a : Aperture) : Nat := a.lo + a.size * 4096

/-- A byte range of a logical cluster's scratchpad lies inside one aperture of the tenant. -/
def Tenant.holds (t : Tenant) (die cluster lo len : Nat) : Bool :=
  t.apertures.any fun a =>
    a.valid && a.die = die && a.cluster = cluster && a.lo ≤ lo && lo + len ≤ a.hi

/-- A range lies inside one slice. -/
def inOneSlice (lo len : Nat) : Bool := lo + len ≤ (lo / sliceBytes + 1) * sliceBytes

def sliceOf (off : Nat) : Nat := off / sliceBytes

/-- The aperture of a tenant with a number. -/
def Tenant.aperture (t : Tenant) (apt : Nat) : Option Aperture :=
  t.apertures.find? fun a => a.apt = apt && a.valid

/-! Bytes. -/

/-- The `n` bytes of a number, least significant first (R4). -/
def leBytes : Nat → Nat → List Byte
  | 0, _ => []
  | n + 1, v => BitVec.ofNat 8 (v % 256) :: leBytes n (v / 256)

/-- The number little-endian bytes spell. -/
def leNat : List Byte → Nat
  | [] => 0
  | b :: bs => b.toNat + 256 * leNat bs

def wordBytes (w : Word) : List Byte := leBytes 4 w.toNat

/-- Read bytes of a cluster's scratchpad. -/
def Cluster.read (c : Cluster) (off n : Nat) : List Byte := Tab.getRun 0 c.spad off n

/-- The 64-bit words a byte range touches, by index. -/
def wordsOf (off n : Nat) : List Nat :=
  if n = 0 then [] else (List.range ((off + n - 1) / 8 - off / 8 + 1)).map fun j => off / 8 + j

/-- Words whose every byte the range covers. -/
def wholeWordsOf (off n : Nat) : List Nat :=
  (wordsOf off n).filter fun w => off ≤ 8 * w && 8 * w + 8 ≤ off + n

/-- The uncorrectable words a read of the range finds (R186); the ECC state of a slice is kept by word index within the
slice. -/
def Cluster.uesIn (c : Cluster) (off n : Nat) : List Nat :=
  (wordsOf off n).filter fun w =>
    (c.slice (w / 2097152)).ue.contains (w % 2097152)

/-- Note the correctable words a read of the range finds (R185). -/
def Cluster.countCe (c : Cluster) (off n : Nat) : Cluster :=
  (wordsOf off n).foldl (fun c w =>
    let i := w / 2097152
    let sl := c.slice i
    if sl.ce.contains (w % 2097152) then c.setSlice i { sl with eccLog := sl.eccLog ++ [(w % 2097152, false)] } else c) c

/-- What a write does to the ECC state of one word (R185, R187). A whole write clears an error; a
partial write repairs a correctable word and leaves an uncorrectable one uncorrectable; either is noted. -/
def Cluster.eccWrite (whole : List Nat) (c : Cluster) (w : Nat) : Cluster :=
  let i := w / 2097152
  let k := w % 2097152
  let sl := c.slice i
  let fix := sl.scrubFix.filter (· ≠ k)
  if whole.contains w then
    c.setSlice i { sl with ce := sl.ce.filter (· ≠ k), ue := sl.ue.filter (· ≠ k), scrubFix := fix }
  else if sl.ue.contains k then
    c.setSlice i { sl with scrubFix := fix, eccLog := sl.eccLog ++ [(k, true)] }
  else if sl.ce.contains k then
    c.setSlice i { sl with ce := sl.ce.filter (· ≠ k), scrubFix := fix, eccLog := sl.eccLog ++ [(k, false)] }
  else c.setSlice i { sl with scrubFix := fix }

/-- Write bytes into a cluster's scratchpad (R187): the bytes and the ECC state of the words. -/
def Cluster.write (c : Cluster) (off : Nat) (bs : List Byte) : Cluster :=
  let c' := (wordsOf off bs.length).foldl (Cluster.eccWrite (wholeWordsOf off bs.length)) c
  { c' with spad := Tab.setRun 0 c'.spad off bs }

/-- Fill a range with zeros, every check code valid (R190, R305, R311). -/
def Cluster.zero (c : Cluster) (lo len : Nat) : Cluster :=
  let clean := fun (i : Nat) (sl : Slice) =>
    let out := fun (k : Nat) => let a := i * sliceBytes + 8 * k; a < lo || lo + len ≤ a
    { sl with ce := sl.ce.filter out, ue := sl.ue.filter out }
  { c with spad := Tab.clearRange c.spad lo (lo + len), s0 := clean 0 c.s0, s1 := clean 1 c.s1,
           s2 := clean 2 c.s2, s3 := clean 3 c.s3 }

/-! Packets of the command transport sent by the device (R273, R275 to R278, R283). -/

/-- Bits [lo + w − 1:lo] of a number. -/
def bitField (n lo w : Nat) : Nat := n / 2 ^ lo % 2 ^ w

/-- A value of `w` bits at bit `lo`. -/
def atBit (v w lo : Nat) : Nat := v % 2 ^ w * 2 ^ lo

/-- The header of an OCT packet (R276); `rest` is what its reserved bits hold. -/
structure OctHead where
  ver : Nat
  type : Nat
  full : Bool
  dir : Nat
  rest : Nat
  tenant : Nat
  keyid : Nat
  session : Nat
  seq : Nat
  ackseq : Nat
  ackmap : Nat
  len : Nat
  seqref : Nat
  deriving DecidableEq, Repr

/-- Its 24 bytes. -/
def OctHead.bytes (h : OctHead) : List Byte :=
  leBytes 24 (atBit h.ver 4 0 + atBit h.type 4 4 + atBit (if h.full then 1 else 0) 1 8 + atBit h.dir 1 9 + atBit h.rest 6 10 +
    atBit h.tenant 8 16 + atBit h.keyid 8 24 + atBit h.session 32 32 + atBit h.seq 32 64 + atBit h.ackseq 32 96 +
    atBit h.ackmap 32 128 + atBit h.len 16 160 + atBit h.seqref 16 176)

def readOct (bs : List Byte) : OctHead :=
  let n := leNat (bs.take 24)
  { ver := bitField n 0 4, type := bitField n 4 4, full := bitField n 8 1 = 1, dir := bitField n 9 1, rest := bitField n 10 6,
    tenant := bitField n 16 8, keyid := bitField n 24 8, session := bitField n 32 32, seq := bitField n 64 32,
    ackseq := bitField n 96 32, ackmap := bitField n 128 32, len := bitField n 160 16, seqref := bitField n 176 16 }

/-- The nonce of R278. -/
def OctHead.nonce (h : OctHead) : BitVec 96 :=
  BitVec.ofNat 96 (h.session + (h.dir * 2 ^ 31 + if h.type = 3 then 2 ^ 30 else 0) * 2 ^ 32 + h.seq * 2 ^ 64)

/-- A half of the port is up (R273); in 1.6 Tb/s mode the port is half A. -/
def Eth.halfUp (e : Eth) (half : Nat) : Bool := if half = 0 then e.upA else e.dual && e.upB

/-- The half that runs PTP: that of ETH_CTL PTPB, or the one that is up (R272, R273). -/
def Eth.ptpHalf (e : Eth) : Bool := (e.ctl.getLsbD 1 && e.upB) || (!e.upA && e.upB)

/-- The half a packet leaves on: the one given, or the other where it alone is up (R273). -/
def Eth.sendHalf (e : Eth) (half : Nat) : Nat := if !e.halfUp half && e.halfUp (1 - half) then 1 - half else half

/-- The generation and key the device sends a tenant's packets under: the oldest in force, until the host's first packet under
a newer one erases it (R304); the boot key while it holds (R389). -/
def State.sendKey (s : State) (tenant : Nat) : Nat × BitVec 256 :=
  if tenant = 0 && s.boot.bootKey then (0, 0) else (s.tenant tenant).keys.headD (0, 0)

/-- ACKMAP: which of the 32 packets after ACKSEQ are held out of order (R276). -/
def Session.ackMap (x : Session) : Nat :=
  (List.range 32).foldl (fun n i => if x.heldOoo.any fun e => e.1 = x.ackseq + 1 + i then n + 2 ^ i else n) 0

/-- The UDP payload of a datagram: header, ciphertext and tag (R275, R278). `refused` is the SEQ an ACK refuses (R282). -/
def Session.datagram (x : Session) (tenant dir : Nat) (key : Nat × BitVec 256) (type seq : Nat) (refused : Option Nat)
    (payload : List Byte) : List Byte :=
  let h : OctHead :=
    { ver := 1, type := type, full := refused.isSome, dir := dir, rest := 0, tenant := tenant, keyid := key.1,
      session := x.id, seq := seq, ackseq := x.ackseq, ackmap := x.ackMap, len := payload.length,
      seqref := refused.getD 0 % 65536 }
  h.bytes ++ Config.gcmSeal key.2 h.nonce h.bytes payload

/-- Send a packet in a session: it takes the next SEQ and waits for its acknowledgement (R277, R283). -/
def Session.send (x : Session) (s : State) (tenant dir type : Nat) (payload : List Byte) : Session :=
  let seq := x.txseq + 1
  let p : TxPacket :=
    { seq := seq, type := type, payload := payload, sends := 1, sentAt := s.clock.sid, half := s.eth.sendHalf x.half,
      dest := x.src, wire := x.datagram tenant dir (s.sendKey tenant) type seq none payload }
  { x with txseq := seq, unacked := x.unacked ++ [p] }

/-- Queue a packet in a tenant's session; nothing without a session (R410). -/
def State.sendPacket (s : State) (tenant type : Nat) (payload : List Byte) : State :=
  let t := s.tenant tenant
  match t.session with
  | none => s
  | some x => s.setTenant tenant { t with session := some (x.send s tenant 1 type payload) }

/-- Queue a PEER packet for the package at (board index, slot) (R294); nothing without that session. -/
def State.sendPeer (s : State) (tenant board slot : Nat) (payload : List Byte) : State :=
  let t := s.tenant tenant
  s.setTenant tenant { t with peers := t.peers.map fun p =>
    if p.board = board && p.slot = slot then { p with sess := p.sess.send s tenant p.dir 0x7 payload } else p }

/-- A NOTE (R410): KIND, tenant, and a body. -/
def State.sendNote (s : State) (tenant kind about : Nat) (body : List Byte) : State :=
  s.sendPacket tenant 0x6 (leBytes 1 kind ++ leBytes 7 about ++ body)

/-- A state-change NOTE, KIND 0x3: new state, reason code and the SEQ of the causing record. -/
def State.sendStateNote (s : State) (tenant : Nat) (reason : Nat) (seq : Word) : State :=
  s.sendNote tenant 3 tenant
    (leBytes 1 (s.tenant tenant).st.code ++ leBytes 1 0 ++ leBytes 2 reason ++ wordBytes seq)

/-! Counters of R296: 0 RXBAD, 1 AUTHF, 2 DUP, 3 FULL, 4 RETX, 5 LOST, 6 PDROP, 7 PFAIL, 8 FECC, 9 UNCOR. -/

def State.countEth (s : State) (n k : Nat) : State :=
  if k = 0 then s
  else
  let s := s.noteCount (dieSite 0) (0x4040 + 4 * n) (Tab.get 0 s.eth.cnt n) k
  { s with eth := { s.eth with cnt := Tab.modify 0 s.eth.cnt n (satAdd · k) } }

/-! Completion records (R284, R286). -/

/-- The completion head. -/
def rspHead (tag : Nat) (st : Status) (chk : Option Word) (tseq detail : Nat) : List Byte :=
  leBytes 2 tag ++ leBytes 1 st.code ++ leBytes 1 (if chk.isSome then 1 else 0) ++
    wordBytes (chk.getD 0) ++ leBytes 4 tseq ++ leBytes 4 detail

/-- The session in force still has packets to be taken; where it has none, the turn is that of the session a HELLO opens
(R279). -/
def Tenant.inForce (t : Tenant) : Bool := t.opening.isNone || t.session.any fun x => !x.queue.isEmpty

/-- The session whose packets are taken. -/
def Tenant.turn (t : Tenant) : Option Session := if t.inForce then t.session else t.opening

def Tenant.setTurn (t : Tenant) (y : Session) : Tenant :=
  if t.inForce then { t with session := some y } else { t with opening := some y }

/-- Complete a command (R284): it leaves the front of its tenant's queue, and its RSP is formed. -/
def State.finish (s : State) (h : CmdHead) (record : List Byte) : State :=
  let t := s.tenant h.tenant
  match t.turn with
  | none => s
  | some y =>
    let rest := match y.queue with
      | (n, k, bs) :: q => if n = h.seq && k = 1 then q else (n, k, bs) :: q
      | [] => []
    s.setTenant h.tenant (t.setTurn ({ y with queue := rest }.send s h.tenant 1 2 record))

/-- A field of a CMD payload: `n` bytes after `lo` bytes of fields (R285, R300). -/
def fieldAt (f : List Byte) (lo n : Nat) : Nat := leNat ((f.drop lo).take n)

/-- A command that is none of R300: its head is cut short, its CODE is reserved, or so is its ACTION or KIND (R301). -/
def reservedCommand (bs : List Byte) : Bool :=
  let code := fieldAt bs 0 1
  bs.length < 8 || code = 0 || 0x11 < code || (code = 0x0E && 2 < fieldAt bs 8 1) || (code = 0x10 && 2 < fieldAt bs 8 1)

/-- What the front of a tenant's queue needs no row of the table for: a reserved command returns UNSUPPORTED (R301), and a
segment that no WRITE has taken is discarded (R287). -/
def State.skim (s : State) (tenant : Nat) : Nat → State
  | 0 => s
  | fuel + 1 =>
    let t := s.tenant tenant
    match t.turn with
    | none => s
    | some y =>
      match y.queue with
      | (n, k, bs) :: q =>
        if k ≠ 1 then State.skim (s.setTenant tenant (t.setTurn { y with queue := q })) tenant fuel
        else if reservedCommand bs then
          let h : CmdHead := { tenant := tenant, seq := n, tag := fieldAt bs 2 2 }
          State.skim (s.finish h (rspHead h.tag .unsupported none 0 0)) tenant fuel
        else s
      | [] => s

/-- Look at the front of a tenant's queue after it has changed. -/
def State.skimAll (s : State) (tenant : Nat) : State :=
  s.skim tenant (((s.tenant tenant).turn.map fun y => y.queue.length).getD 0)

/-- Complete a command with its completion record. -/
def State.complete (s : State) (h : CmdHead) (st : Status) (chk : Option Word) (tseq detail : Nat)
    (results : List Byte) : State :=
  (s.finish h (rspHead h.tag st chk tseq detail ++ results)).skimAll h.tenant

/-- Complete a command without check value or results. -/
def State.reply_ (s : State) (h : CmdHead) (st : Status) : State := s.complete h st none 0 0 []

/-! Fault records (R405). -/

/-- The eight words of a record. -/
def FaultRec.words (die : Nat) (r : FaultRec) : List Word :=
  let ten := match r.tenant with
    | some t => 8192 + t * 16384
    | none => 0
  [BitVec.ofNat 32 (r.cls + r.cause * 16 + die * 4096 + ten + r.phys * 4194304 + r.supp * 134217728),
   BitVec.ofNat 32 r.seq, BitVec.ofNat 32 r.sid.toNat, BitVec.ofNat 32 (r.sid.toNat / 4294967296),
   BitVec.ofNat 32 r.beat, BitVec.ofNat 32 r.exp, BitVec.ofNat 32 r.detail.toNat,
   BitVec.ofNat 32 (r.detail.toNat / 4294967296)]

def FaultRec.bytes (die : Nat) (r : FaultRec) : List Byte :=
  (r.words die).foldr (fun w bs => wordBytes w ++ bs) []

/-- The regions in which a tenant's plate runs on this package. -/
def Binding.regions (b : Binding) : List Nat :=
  (b.sites.map fun p => regionKey p.die p.phys).eraseDups

/-- The plate beat in progress or last ended in a region: one less than the beats begun. -/
def Run.beatIn (r : Run) (region : Nat) : Nat := Tab.get 0 r.beats region - 1

/-- The beats begun in the furthest region of the run. -/
def Run.furthest (r : Run) (regions : List Nat) : Nat :=
  regions.foldl (fun m k => if m < Tab.get 0 r.beats k then Tab.get 0 r.beats k else m) 0

/-- Plate beats of a tenant's run begun in its furthest region; 0 without a run. -/
def State.beatsOf (s : State) (tenant : Nat) : Nat :=
  match (s.tenant tenant).run, (s.tenant tenant).binding with
  | some r, some b => if (s.tenant tenant).st = .running then r.furthest b.regions else 0
  | _, _ => 0

def State.explenOf (s : State) (tenant : Nat) : Nat :=
  match (s.tenant tenant).binding with
  | some b => b.explen
  | none => 1

/-- The key of a record's cause and place, for the rate limit (R408). -/
def faultPlace (cause phys : Nat) : Nat := cause * 32 + phys

/-- Make a record (R405 to R409): count the occurrence; a record that halts no run is suppressed within
1 ms of the last of its cause and place. `beat` is the plate beat on which the fault took effect. -/
def State.record (s : State) (die cls cause : Nat) (tenant : Option Nat) (phys beat : Nat) (detail : DWord)
    (halts : Bool) : State :=
  let f := s.flt die
  let place := faultPlace cause phys
  let s := s.noteCount (dieSite die) (0x6100 + 4 * cause) (Tab.get 0 f.cnt cause) 1
  let s := s.note (dieSite die) 0x6004 (BitVec.ofNat 32 f.worst) (BitVec.ofNat 32 cls) wordMax
  let f := { f with cnt := Tab.modify 0 f.cnt cause (satAdd · 1),
                    worst := if f.worst = 7 || f.worst < cls then cls else f.worst }
  let recent := !halts && (f.lastAt.any fun e => e.1 = place) &&
    !s.elapsed (Tab.get 0 f.lastAt place) 1000000
  if recent then
    s.setFlt die { f with supp := Tab.modify 0 f.supp place fun n => if n < 31 then n + 1 else 31 }
  else
    let running : Bool := match tenant with
      | some t => decide ((s.tenant t).st = .running)
      | none => false
    let exp := match tenant with
      | some t => beat / s.explenOf t
      | none => 0
    let r : FaultRec :=
      { cls := cls, cause := cause, die := die, tenant := tenant, phys := phys,
        supp := Tab.get 0 f.supp place, seq := f.head + 1, sid := s.clock.sid,
        beat := if running then beat else 0, exp := if running then exp else 0, detail := detail }
    let full := f.ring.length = 256
    let s := if full then s.noteCount (dieSite die) 0x6010 f.lost 1 else s
    s.setFlt die
      { f with ring := (r :: f.ring).take 256, head := f.head + 1,
               lost := if full then satAdd f.lost 1 else f.lost,
               lastAt := if halts then f.lastAt else Tab.insert f.lastAt place s.clock.sid,
               supp := Tab.set 0 f.supp place 0,
               tlast := match tenant with
                 | some t => Tab.set 0 f.tlast t (f.head + 1)
                 | none => f.tlast }

/-- The newest record of a die. -/
def State.newest (s : State) (die : Nat) : Option FaultRec := (s.flt die).ring.head?

/-- FSEQ of the newest record: its SEQ with the die in bit 31 (R417). -/
def State.fseq (s : State) (die : Nat) : Word :=
  BitVec.ofNat 32 ((s.flt die).head % 2147483648 + die * 2147483648)

/-- Send the newest record of a die to a tenant and to the operator (R404). In a record of class 3 or 4
sent to a tenant, TENANT names that tenant (R410). -/
def State.noteRecord (s : State) (die : Nat) (tenants : List Nat) : State :=
  match s.newest die with
  | none => s
  | some r =>
    let s := tenants.foldl (fun s t =>
      if t = 0 then s
      else s.sendNote t 2 t ((if 3 ≤ r.cls then { r with tenant := some t } else r).bytes die)) s
    s.sendNote 0 2 0 (r.bytes die)

/-! The flag summary (R415) and the run record (R417). -/

def Summary.init : Summary :=
  { cnvNan := 0, cnvSat := 0, nanfill := 0, goor := 0, sovf := 0, sdrop := 0, sbad := 0, pcoll := 0,
    tout := 0, mflags := 0, vflags := 0 }

/-- Apply a change to a tenant's run. -/
def State.modRun (s : State) (tenant : Nat) (f : Run → Run) : State :=
  let t := s.tenant tenant
  match t.run with
  | none => s
  | some r => s.setTenant tenant { t with run := some (f r) }

def State.summarise (s : State) (tenant : Nat) (f : Summary → Summary) : State :=
  s.modRun tenant fun r => { r with summary := f r.summary }

def scopeCode (b : Binding) : Nat := b.scope

/-- The 32 words of a run record, with the status and FSEQ the run ends with. -/
def Run.record (r : Run) (b : Binding) (digest : BitVec 384) (beats : Nat) (status : Status)
    (fseq : Word) (energy : DWord) : List Word :=
  let flag := fun (c : Bool) (k : Nat) => if c then 2 ^ k else 0
  let rflags := flag r.stopped 0 + flag r.rated 1 + flag (r.short ≠ 0) 2 + flag r.emerg 3 + flag r.lockLoss 4
  let lo := fun (d : DWord) => BitVec.ofNat 32 d.toNat
  let hi := fun (d : DWord) => BitVec.ofNat 32 (d.toNat / 4294967296)
  [BitVec.ofNat 32 (status.code + rflags * 256 + b.scope * 65536), fseq,
   BitVec.ofNat 32 digest.toNat, BitVec.ofNat 32 (digest.toNat / 4294967296),
   lo r.tlaunch, hi r.tlaunch, lo r.tend, hi r.tend,
   BitVec.ofNat 32 beats, BitVec.ofNat 32 (beats / 4294967296),
   r.exps, r.xwait, r.late, r.stretch, r.hold, r.short,
   lo (energy - r.energy0), hi (energy - r.energy0),
   BitVec.ofNat 32 r.emax, BitVec.ofNat 32 r.emaxIdx,
   BitVec.ofNat 32 (r.summary.mflags.toNat + 16 * r.summary.vflags.toNat),
   r.summary.cnvNan, r.summary.cnvSat, r.summary.nanfill, r.summary.goor, r.summary.sovf,
   r.summary.sdrop, r.summary.sbad, r.summary.pcoll, r.summary.tout, r.fgate, 0]

/-! Flags of a cluster (R218 to R220). -/

def Cluster.flag (c : Cluster) (n : Nat) : Flag := Tab.get Flag.init c.flags n

def Cluster.setFlag (c : Cluster) (n : Nat) (f : Flag) : Cluster :=
  { c with flags := Tab.set Flag.init c.flags n f }

/-- The operations that reach a flag on one beat: every CLR, then all k CNT together, then every SET
(R220). -/
def Flag.apply (f : Flag) (ops : List FlagOp) : Flag :=
  let f := if ops.contains .clr then { f with s := false, c := 0 } else f
  let k := ops.count .cnt
  let f := if k = 0 then f
    else if f.th ≤ f.c + k then { f with s := true, c := (f.c + k) % f.th }
    else { f with c := f.c + k }
  if ops.contains .set then { f with s := true } else f

/-- Whether a wait's condition holds of a flag (R219). -/
def Wait.holds (w : Wait) (f : Flag) : Bool := if w.clear then !f.s else f.s

/-! The core state of a cluster and its tenant (R314). -/

/-- The observing schedule in force: none while NSLOT reads 0 (R312). -/
def State.schedule (s : State) : Option Sched := s.sched.filter fun x => x.nslot ≠ 0

/-- Clear what an outgoing tenant leaves in a core island (R85, R87, R108, R109, R147, R169). Its flags and counters are in
its summary already. -/
def Arr.handOver (x : Arr) : Arr := { Arr.init with cols := x.cols }

/-- Clear both arrays, both vector cores, the index buffer and the scalar core of what a tenant leaves; SEL_SLAST goes with the
selection counters (notes/assumptions/103.md). -/
def Cluster.handOver (c : Cluster) : Cluster :=
  { c with a0 := c.a0.handOver, a1 := c.a1.handOver, v0 := VCore.init, v1 := VCore.init, xb := [], xbv := 0, x := [] }

/-- Give a cluster to a tenant: where another's core state is left in it, that is cleared (R85, R87, R108, R147, R169). -/
def Cluster.giveTo (c : Cluster) (tenant : Nat) : Cluster :=
  { (if c.occupant.any fun o => o ≠ tenant then c.handOver else c) with occupant := some tenant }

/-! Halting a run (R448). -/

/-- Whether a region of a run has ended beat h − 1, so that it takes no further part. -/
def Run.pastHalt (r : Run) (h region : Nat) : Bool :=
  let b := Tab.get 0 r.beats region
  h < b || (h = b && (r.done.contains region || b = 0))

/-- The cluster runs a context of the tenant. -/
def Cluster.runs (c : Cluster) (tenant : Nat) : Bool := c.running.any fun k => (c.ctx k).tenant = tenant

/-- Nothing of a stopped plate is in an array's pipeline any more (R86). -/
def Arr.drained (x : Arr) : Arr := { x with feedUntil := 0, drainUntil := 0 }

/-- End the plate's operations in one cluster: waits, open RECVs, parameter writes, flag operations of the plate and
what the units hold of it that has not committed. An operation a host's SNET_FOP made is not the plate's (R448). -/
def Cluster.stopTenant (tenant : Nat) (c : Cluster) : Cluster :=
  { c with
    ctxs := c.ctxs.map fun e =>
      if e.2.tenant = tenant && e.2.valid then
        (e.1, { e.2 with wait := none, recv := none, pwrites := [], jobs := [], commits := [] })
      else e
    flagMsgs := c.flagMsgs.filter fun m => m.tenant ≠ tenant || m.host
    a0 := if c.runs tenant then c.a0.drained else c.a0
    a1 := if c.runs tenant then c.a1.drained else c.a1
    v0 := if c.runs tenant then { c.v0 with selUntil := 0 } else c.v0
    v1 := if c.runs tenant then { c.v1 with selUntil := 0 } else c.v1
    ports := if c.runs tenant then [] else c.ports
    dport := if c.runs tenant then [] else c.dport }

/-- Drop a tenant's scheduled flits. -/
def Router.dropTenant (tenant : Nat) (r : Router) : Router :=
  { r with flits := r.flits.filter fun f => f.flit.tenant ≠ tenant, switched := Tab.erase r.switched tenant,
           parity := Tab.erase r.parity tenant }

/-- Beats from the last arrival to the release of a die or package barrier (R230). -/
def barrierDelay (scope : Nat) : Nat := if scope = 0 then 32 else 48

/-- A tenant's barrier begins a new episode with nobody arrived. -/
def Barrier.resetFor (tenant : Nat) (x : Barrier) : Barrier :=
  if x.tenant = tenant then { x with arrivedBy := [], last := 0, complete := false } else x

/-- A sync entry a plate made: a flag operation or an arrival stamp, not a HALT. -/
def syncOfPlate (tenant : Nat) (e : SyncEntry) : Bool :=
  match e with
  | .flagop t _ _ _ _ _ _ => t = tenant
  | .stamp t _ _ _ => t = tenant
  | _ => false

/-- No flit or sync entry of the plate leaves a station (R448). -/
def Link.dropTenant (tenant : Nat) (x : Link) : Link :=
  { x with txFlits := x.txFlits.filter fun f => f.2.tenant ≠ tenant,
           txPart := x.txPart.filter fun f => f.1 ≠ tenant,
           txTransit := x.txTransit.filter fun e => !syncOfPlate tenant e.2,
           rxSched := x.rxSched.filter fun f => f.tenant ≠ tenant,
           txSync := x.txSync.filter fun e => !syncOfPlate tenant e,
           rxSync := x.rxSync.filter fun e => !syncOfPlate tenant e,
           peerBeat := Tab.erase x.peerBeat tenant }

/-- The same at the Ethernet station, for a run that did not complete. -/
def Eth.dropTenant (tenant : Nat) (x : Eth) : Eth :=
  { x with egress := x.egress.filter fun f => f.tenant ≠ tenant, asm := Tab.erase x.asm tenant }

/-- End a run: the tenant is Halted, its staged patches are discarded (R299), the run record is kept and
sent (R417), and nothing of the plate is left in flight. -/
def State.endRun (s : State) (tenant : Nat) (status : Status) (fseq : Word) (beats : Nat) : State :=
  let t := s.tenant tenant
  match t.run, t.binding with
  | some r, some b =>
    let digest := match t.plate with
      | some p => p.digest
      | none => 0
    let r := { r with ended := true, tend := s.clock.sid, gate := none, halting := none }
    let words := r.record b digest beats status fseq s.power.energy
    let s := s.setTenant tenant
      { t with st := .halted, run := some r, record := words, lastStatus := status,
               lastStopped := r.stopped, staged := [] }
    let s := { s with clusters := s.clusters.map fun (k, c) => (k, Cluster.stopTenant tenant c) }
    let s := { s with routers := s.routers.map fun (k, x) => (k, Router.dropTenant tenant x) }
    let s := { s with links := s.links.map fun (k, x) => (k, Link.dropTenant tenant x) }
    let s := if status = .ok && !r.stopped then s else { s with eth := Eth.dropTenant tenant s.eth }
    let s := { s with barriers := s.barriers.map (Barrier.resetFor tenant) }
    let s := s.sendNote tenant 1 tenant (words.foldr (fun w bs => wordBytes w ++ bs) [])
    match (s.tenant tenant).stopping with
    | some h => (s.setTenant tenant { s.tenant tenant with stopping := none }).reply_ h .ok
    | none => s
  | _, _ => s

/-- End the run once every region of it has ended beat h − 1. -/
def State.settleHalt (s : State) (tenant : Nat) : State :=
  let t := s.tenant tenant
  match t.run, t.binding with
  | some r, some b =>
    match r.halting with
    | none => s
    | some x =>
      if b.regions.all fun g => r.pastHalt x.h g then s.endRun tenant x.status x.fseq x.h else s
  | _, _ => s

/-- The first UP link whose far end is a board slot (one link of a bundle). -/
def State.bundleLink (s : State) (slot : Nat) : Option Nat :=
  (s.links.find? fun e =>
    e.2.st = .up && (match e.2.peer with
      | some p => p.slot = slot
      | none => false)).map (·.1)

/-- The lowest-numbered UP link of a die whose far end is a slot: its sync link and home link (R252,
R258). -/
def State.bundleLinkOn (s : State) (die slot : Nat) : Option Nat :=
  (s.links.find? fun e => e.1 / 24 = die && e.2.st = .up && (match e.2.peer with
    | some p => p.slot = slot
    | none => false)).map (·.1)

/-- Put a sync entry on one link of the bundle to a slot; nothing when no link of it is UP. -/
def State.sendSync (s : State) (slot : Nat) (e : SyncEntry) : State :=
  match s.bundleLink slot with
  | none => s
  | some k => { s with links := Tab.modify Link.init s.links k fun l => { l with txSync := l.txSync ++ [e] } }

/-- The board slot of this package (R36). -/
def State.slot (s : State) : Nat := s.pins.slot

def State.boardIndex (s : State) : Nat :=
  match s.sys with
  | some r => r.board
  | none => 0

/-- The other packages of a plate's partition on this board. -/
def Binding.boardPeers (b : Binding) (slot board : Nat) : List Nat :=
  ((b.packages.filter fun p => (b.scope = 1 || p.2 = board) && p.1 ≠ slot).map (·.1)).eraseDups

/-- The lowest slot of the partition on every other board (R295). -/
def Binding.otherBoards (b : Binding) (board : Nat) : List (Nat × Nat) :=
  let boards := ((b.packages.map (·.2)).filter (· ≠ board)).eraseDups
  boards.map fun x =>
    (x, ((b.packages.filter fun p => p.2 = x).map (·.1)).foldl (fun m k => if k < m then k else m) 16)

/-- HALT on one link of every bundle of the partition (R239), and for a system plate a PEER halt to the
lowest slot of every other board (R295). -/
def State.spreadHalt (s : State) (tenant : Nat) (status : Status) (withPeers : Bool) : State :=
  let t := s.tenant tenant
  match t.run, t.binding with
  | some r, some b =>
    if b.scope = 0 then s
    else
      let e := SyncEntry.halt tenant s.slot r.exp status.code
      let s := (b.boardPeers s.slot s.boardIndex).foldl (fun s k => s.sendSync k e) s
      if b.scope = 2 && withPeers then
        (b.otherBoards s.boardIndex).foldl (fun s p =>
          s.sendPeer tenant p.1 p.2 (leBytes 4 r.exp ++ leBytes 1 status.code)) s
      else s
  | _, _ => s

/-- Halt a tenant's run on beat h with a status (R448): the earliest halt stands; a board or system plate
tells its partition (R239). -/
def State.haltRun (s : State) (tenant h : Nat) (status : Status) (fseq : Word) (withPeers : Bool) : State :=
  let t := s.tenant tenant
  match t.run with
  | none => s
  | some r =>
    if t.st ≠ .running then s
    else
      let keep := match r.halting with
        | some x => decide (x.h ≤ h)
        | none => false
      if keep then s
      else
        let s := s.setTenant tenant
          { t with run := some ({ r with halting := some { h := h, status := status, fseq := fseq },
                                         stopped := r.stopped && r.halting.isNone }) }
        let s := if r.halting.isSome then s else s.spreadHalt tenant status withPeers
        s.settleHalt tenant

/-- Tenants Running on the package. -/
def State.runningTenants (s : State) : List Nat :=
  (s.tenants.filter fun e => e.2.st = .running).map (·.1)

/-- Record a fault that halts a tenant's run on beat h, tell the tenant and the operator, and halt. -/
def State.faultHalt (s : State) (die cls cause tenant phys h : Nat) (detail : DWord) (status : Status) : State :=
  let s := s.record die cls cause (some tenant) phys h detail true
  let s := s.noteRecord die [tenant]
  s.haltRun tenant h status (s.fseq die) true

/-- The plate beat in progress in a run's furthest region, or, where that region has ended its last beat, the
next: the beat h of a halt that no plate beat names (notes/assumptions/9.md). -/
def State.beatNow (s : State) (tenant : Nat) : Nat :=
  let t := s.tenant tenant
  match t.run, t.binding with
  | some r, some b =>
    let n := s.beatsOf tenant
    if b.regions.all fun g => r.done.contains g || Tab.get 0 r.beats g < n then n else n - 1
  | _, _ => 0

end Sys2Proof.Machine
end

