-- ==== Sys2Proof/Machine/Topo.lean ====
section
/-!
DEFINITION. The decode map (R20 to R28): what First Light publishes from self-test (R393), the changes of
a stand-in, and the distances R29 to R33 that the TOPO registers show.
-/

namespace Sys2Proof.Machine

/-- Logical clusters per die of a grade (R1). -/
def gradeClusters (grade : Nat) : Nat := if grade = 0x48 then 24 else 20

/-- Nominal physical cluster of a logical one (R23). -/
def nominal (l : Nat) : Nat :=
  if l < 20 then
    let r := l / 5
    let k := l % 5
    6 * r + if k < 2 then k else k + 1
  else 6 * (l - 20) + 2

/-- Logical cluster whose nominal position is P on a grade (R23); none for a T40 spare. -/
def nominalAt (grade p : Nat) : Option Nat :=
  let r := p / 6
  let c := p % 6
  if c = 2 then (if grade = 0x48 then some (20 + r) else none)
  else some (5 * r + if c < 2 then c else c - 1)

/-- TOPO_LMAP word of a logical cluster at P (R38). -/
def lmapWord (l p : Nat) : Word :=
  BitVec.ofNat 32 (p + p / 6 * 256 + p % 6 * 4096 + (if nominal l ≠ p then 65536 else 0) + 2147483648)

/-- TOPO_LMAP word of an absent logical cluster. -/
def lmapAbsent : Word := 0x1F

/-- TOPO_PMAP word: logical cluster (0x1F none), STATE, BIST (R38). -/
def pmapWord (l state : Nat) (bist : Bool) : Word :=
  BitVec.ofNat 32 (l + state * 256 + if bist then 65536 else 0)

/-- A bank has 8 spare rows and 2 spare columns; failures beyond them fail the slice (R189). -/
def sliceFail (f : SliceFinding) : Bool := f.banks.any fun b => 8 < b.1 || 2 < b.2

/-- Spare rows assigned, over all banks, in 8 bits (notes/assumptions/109.md). -/
def spareRows (f : SliceFinding) : Nat := min 255 ((f.banks.map fun b => min 8 b.1).sum)

/-- Spare columns assigned, over all banks, in 6 bits (notes/assumptions/109.md). -/
def spareCols (f : SliceFinding) : Nat := min 63 ((f.banks.map fun b => min 2 b.2).sum)

/-- What self-test says of a physical cluster: passes, core failed, router failed (R393). A slice beyond
its spares is a core failure. -/
def clusterState (fs : List ClusterFinding) (die p : Nat) : Nat :=
  match fs.find? fun f => f.die = die && f.phys = p with
  | none => 0
  | some f => if !f.routerOk then 2 else if !f.coreOk || f.slices.any sliceFail then 3 else 0

/-- The logical cluster whose number the column-2 cluster of a row takes at First Light: the lowest failed
one (R24, R25). -/
def standsFor (st : Nat → Nat) (row : Nat) : Option Nat :=
  if st (6 * row + 2) ≠ 0 then none
  else ((List.range 5).map fun k => 5 * row + k).find? fun l => st (nominal l) ≠ 0

/-- Where First Light puts a logical cluster (R24, R25, R393). -/
def placeOf (grade : Nat) (st : Nat → Nat) (l : Nat) : Option Nat :=
  if gradeClusters grade ≤ l then none
  else
    let p := nominal l
    let row := p / 6
    if st p = 0 then (if 20 ≤ l && (standsFor st row).isSome then none else some p)
    else if l < 20 && standsFor st row = some l then some (6 * row + 2) else none

/-- The physical map of a die from self-test (R393). -/
def pmapOf (grade : Nat) (st : Nat → Nat) (p : Nat) : Word :=
  if st p ≠ 0 then pmapWord 0x1F (st p) false
  else
    match (List.range 24).find? fun l => placeOf grade st l = some p with
    | some l => pmapWord l 0 true
    | none => pmapWord 0x1F 1 true

/-- Publish the map of a die and set TOPO_GEN to 1 (R28, R393). -/
def State.publish (s : State) (fs : List ClusterFinding) (die : Nat) : State :=
  let st := clusterState fs die
  let s := (List.range 24).foldl (fun s l =>
    s.setLmap die l (match placeOf s.part.grade st l with
      | some p => lmapWord l p
      | none => lmapAbsent)) s
  let s := (List.range 24).foldl (fun s p => s.setPmap die p (pmapOf s.part.grade st p)) s
  s.setReg (dieSite die) 0x9008 0 1

/-- A change of the map increments TOPO_GEN (R28). -/
def State.bumpGen (s : State) (die : Nat) : State :=
  s.setReg (dieSite die) 0x9008 0 (s.topoGen die + 1)

/-! The distance registers (R29 to R34, R38), computed from the map in force. -/

/-- One-way distance from position P to a link station's die link (R22, R32). -/
def portToLink (p link : Nat) : Nat :=
  let r := p / 6
  let c := p % 6
  let rs := if link < 12 then 0 else 3
  let cs := link % 12 / 2
  let dr := if r ≤ rs then rs - r else r - rs
  let dc := if c ≤ cs then cs - c else c - cs
  2 * (dr + dc) + 4 * dr + 2

/-- One-way distance to the far side of the row's bridge station (R32). -/
def portToBridge (p : Nat) : Nat := 2 * (5 - p % 6) + 8

/-- One-way distance to the Ethernet station (R32). -/
def portToEth (die p : Nat) : Nat :=
  let r := p / 6
  let c := p % 6
  let dr := if r ≤ 1 then 1 - r else r - 1
  if die = 0 then 2 * (dr + c) + 4 * dr + 2
  else 2 * (5 - c) + 8 + 2 * (dr + 5) + 4 * dr + 2

/-- TOPO_DIST or TOPO_XDIST byte: round-trip distance between two logical clusters, 0xFF when either is
absent (R38). -/
def State.distByte (s : State) (dieA a dieB b : Nat) : Nat :=
  match s.physOf dieA a, s.physOf dieB b with
  | some p, some q => 2 * oneWay dieA p dieB q
  | _, _ => 0xFF

/-- TOPO_PORT byte of port p from logical a. -/
def State.portByte (s : State) (die a port : Nat) : Nat :=
  if 26 ≤ port then 0
  else
    match s.physOf die a with
    | none => 0xFF
    | some p => if port < 24 then portToLink p port else if port = 24 then portToBridge p else portToEth die p

/-- The favoured bitmap of a class: 0 links, 1 bridge, 2 Ethernet (R33). -/
def State.favoured (s : State) (die cls : Nat) : Word :=
  BitVec.ofNat 32 ((List.range 24).foldl (fun (acc : Nat) l =>
    match s.physOf die l with
    | none => acc
    | some p =>
      let yes := match cls with
        | 0 => decide (p / 6 = 0) || decide (p / 6 = 3)
        | 1 => decide (p % 6 = 5)
        | _ => decide (die = 0) && decide (p = 6)
      if yes then acc + 2 ^ l else acc) 0)

/-- Measurement 9 (R400): the defect map's bytes. -/
def State.defectMap (s : State) : List Byte :=
  (List.range 2).foldr (fun d bs =>
    (List.range 24).foldr (fun p bs => wordBytes (s.pmap d p) ++ bs)
      ((List.range 24).foldr (fun p bs =>
        (List.range 4).foldr (fun i bs =>
          let x := (s.cluster d p).slice i
          leBytes 4 (x.rows + 256 * x.cols + if x.fail then 16384 else 0) ++ bs) bs) bs)) []

/-- Keep measurement 9 with the map (R400). -/
def State.measureMap (s : State) : State :=
  { s with fw := { s.fw with meas := Tab.set 0 s.fw.meas 9 (Config.sha384 s.defectMap) } }

end Sys2Proof.Machine
end

