-- ==== Sys2Proof/Machine/Route.lean ====
section
/-!
DEFINITION. Routes, routing tables and the ephemeris of the bulk network (R195 to R212), and the way of an
unscheduled packet into a die and of an answer back to its source.
-/

namespace Sys2Proof.Machine

/-! Counters of a router (R216). -/

/-- Add to a BNET event counter. -/
def State.countBnet (s : State) (die phys off n : Nat) : State :=
  let v := s.reg (clSite die phys) (0x6000 + off) 0
  (s.setReg (clSite die phys) (0x6000 + off) 0 (satAdd v n)).noteCount (clSite die phys) (0x6000 + off) v n

/-- BNET_SFLIT as one 64-bit count. -/
def State.sflit (s : State) (die phys : Nat) : Nat :=
  (s.reg (clSite die phys) 0x6030 0).toNat + 4294967296 * (s.reg (clSite die phys) 0x6034 0).toNat

/-- Count scheduled flits switched, once per output lane (R217). -/
def State.addSflit (s : State) (die phys n : Nat) : State :=
  let c := s.sflit die phys + n
  (s.setReg (clSite die phys) 0x6030 0 (BitVec.ofNat 32 c)).setReg (clSite die phys) 0x6034 0
    (BitVec.ofNat 32 (c / 4294967296))

/-! Lanes (R195). -/

/-- Whether a lane of R195 is present at a router. -/
def lanePresent (die phys lane : Nat) : Bool :=
  let r := phys / 6
  let c := phys % 6
  match lane with
  | 0 => true
  | 1 => decide (0 < r)
  | 2 => decide (r < 3)
  | 3 => decide (0 < c)
  | 4 => decide (c < 5)
  | 5 => r = 0 || r = 3 || (die = 0 && phys = 6)
  | 6 => r = 0 || r = 3 || (die = 0 && phys = 6)
  | 7 => decide (c = 5)
  | 8 => decide (c = 5)
  | 9 => decide (c = 5)
  | _ => false

/-- Whether a router's EDGE lanes lead to the Ethernet station. -/
def isEthRouter (die phys : Nat) : Bool := die = 0 && phys = 6

/-- The router and input lane an output lane leads to on the package; none for LOC and EDGE lanes. -/
def laneNext (die phys lane : Nat) : Option (Nat × Nat × Nat) :=
  if !lanePresent die phys lane then none
  else
    match lane with
    | 1 => some (die, phys - 6, 2)
    | 2 => some (die, phys + 6, 1)
    | 3 => some (die, phys - 1, 4)
    | 4 => some (die, phys + 1, 3)
    | 7 => some (1 - die, phys, 7)
    | 8 => some (1 - die, phys, 8)
    | 9 => some (1 - die, phys, 9)
    | _ => none

/-- Beats from the switch at an output lane to the presence at the next input (R196). -/
def laneCost (lane : Nat) : Nat :=
  match lane with
  | 1 => 6 | 2 => 6 | 3 => 2 | 4 => 2 | 7 => 8 | 8 => 8 | 9 => 8 | _ => 0

/-- The router of a die link's station (R22). -/
def stationPhys (link : Nat) : Nat := (if link < 12 then 0 else 18) + link % 12 / 2

/-- The die link behind an EDGE lane of a router of rows 0 and 3 (R257). -/
def edgeLink (phys lane : Nat) : Nat := (if phys < 6 then 0 else 12) + 2 * (phys % 6) + (lane - 5)

/-! The keeper's routes (R29, R208, R212, R258). -/

/-- The coordinates passed from x to y, x excluded. -/
def walk (x y : Nat) : List Nat :=
  if x < y then (List.range (y - x)).map (x + 1 + ·) else (List.range (x - y)).map fun k => x - 1 - k

/-- The routers of a path along the row to column `via`, along it to the target's row, and on along that row. -/
def pathCol (p q via : Nat) : List Nat :=
  (walk (p % 6) via).map (fun c => 6 * (p / 6) + c) ++ (walk (p / 6) (q / 6)).map (fun r => 6 * r + via) ++
    (walk via (q % 6)).map fun c => 6 * (q / 6) + c

/-- The same with the roles of row and column exchanged. -/
def pathRow (p q via : Nat) : List Nat :=
  (walk (p / 6) via).map (fun r => 6 * r + p % 6) ++ (walk (p % 6) (q % 6)).map (fun c => 6 * via + c) ++
    (walk via (q / 6)).map fun r => 6 * r + q % 6

/-- The route of R29 from a router to another of its die: along the row first, but from a router of column 5, where traffic
comes in over the bridge, along the column first (notes/assumptions/84.md). -/
def plainPath (p q : Nat) : List Nat := if p % 6 = 5 then pathRow p q (q / 6) else pathCol p q (q % 6)

/-- The output lane toward a neighbouring router. -/
def laneTo (p q : Nat) : Nat :=
  if q + 6 = p then 1 else if q = p + 6 then 2 else if q + 1 = p then 3 else 4

/-- The routers beside a router on its die. -/
def routersBeside (p : Nat) : List Nat :=
  (if p < 6 then [] else [p - 6]) ++ (if p < 18 then [p + 6] else []) ++ (if p % 6 = 0 then [] else [p - 1]) ++
    if p % 6 = 5 then [] else [p + 1]

/-- Turns of a way that leaves router p. -/
def turnsOf (p : Nat) (path : List Nat) : Nat :=
  (path.foldl (fun (x : Nat × Option Bool × Nat) y =>
    let row := decide (x.1 / 6 = y / 6)
    (y, some row, if x.2.1 = some (!row) then x.2.2 + 1 else x.2.2)) (p, none, 0)).2.2

/-- The ways of a die's routers to one router: for each router that has one, the routers its packets pass. -/
abbrev Ways := List (Nat × List Nat)

def Ways.of (w : Ways) (p : Nat) : Option (List Nat) := (w.find? fun e => e.1 = p).map (·.2)

/-- The routers whose path of a kind passes no router out of service. -/
def seedWays (out : Nat → Bool) (q : Nat) (path : Nat → Nat → List Nat) : Ways :=
  (List.range 24).filterMap fun p => if out p || (path p q).any out then none else some (p, path p q)

/-- Routers still without a way take that of a neighbour, the shortest with at most two turns (R212). -/
def growWays (out : Nat → Bool) (w : Ways) : Ways :=
  w ++ (List.range 24).filterMap fun p =>
    if out p || (w.of p).isSome then none
    else
      let ways := (routersBeside p).filterMap fun n => (w.of n).map fun x => n :: x
      let fit := ways.filter fun x => !x.contains p && turnsOf p x ≤ 2
      (fit.foldl (fun (m : Option (List Nat)) x => match m with
        | some y => some (if x.length < y.length then x else y)
        | none => some x) none).map fun x => (p, x)

def growTimes (out : Nat → Bool) : Nat → Ways → Ways
  | 0, w => w
  | n + 1, w => growTimes out n (growWays out w)

/-- The keeper's ways to a router of a die: the routes of R29 where they are whole and detours from the others; where
column-first or row-first ways reach more routers within two turns, those (R212; notes/assumptions/16.md). -/
def waysTo (out : Nat → Bool) (q : Nat) : Ways :=
  if !(List.range 24).any out then (List.range 24).map fun p => (p, plainPath p q)
  else
    let tries := [plainPath, fun p q => pathRow p q (q / 6), fun p q => pathCol p q (q % 6)].map fun path =>
      growTimes out 24 (seedWays out q path)
    tries.foldl (fun m x => if m.length < x.length then x else m) []

/-- A table entry toward a router whose port `port` ends the way: OUT, and DETOUR where the way is not the route of
R29. -/
def entryTo (out : Nat → Bool) (p q port : Nat) : Nat :=
  if p = q then port
  else
    match (waysTo out q).of p with
    | none => 0xF
    | some path => laneTo p (path.headD p) + if path = plainPath p q then 0 else 16

/-- A table entry toward the other die: through the bridge of the own row, else through the nearest row
whose bridge routers are in service on both dies. -/
def entryAcross (out far : Nat → Bool) (p : Nat) : Nat :=
  let own := 6 * (p / 6) + 5
  let ok := fun (q : Nat) => !out q && !far q
  if ok own && (entryTo out p own 7) ≠ 0xF then entryTo out p own 7
  else
    let cands := ((List.range 4).map fun r => 6 * r + 5).filter fun q => ok q && entryTo out p q 7 ≠ 0xF
    match cands with
    | [] => 0xF
    | q :: qs =>
      let len : Nat → Nat := fun x => (((waysTo out x).of p).getD []).length
      let best := qs.foldl (fun (m x : Nat) => if len x < len m then x else m) q
      let e := entryTo out p best 7
      if e < 16 then e + 16 else e

/-- Whether a router is out of service. -/
def State.routerOut (s : State) (die p : Nat) : Bool := s.pstate die p = 2

/-- The relay to a board slot (R258): the lowest other slot whose bundles to this package and to that slot each have an UP
link; the far bundle as last read (notes/assumptions/115.md). -/
def State.relayTo (s : State) (slot : Nat) : Option Nat :=
  let listed := fun (q : Nat) => match s.board with
    | some b => b.slots.contains q
    | none => false
  (List.range 16).find? fun q =>
    q ≠ s.slot && q ≠ slot && listed q && (s.bundleLink q).isSome && (Tab.get [] s.clock.farUp q).contains slot

/-- A board slot is reachable: by a direct bundle with an UP link, or over a relay (R54). -/
def State.reaches (s : State) (slot : Nat) : Bool := (s.bundleLink slot).isSome || (s.relayTo slot).isSome

/-- The link by which a die's unscheduled traffic leaves for a board slot (R258): its home link, else that of
the other die, else that of the relay. -/
def State.homeLink (s : State) (die slot : Nat) : Option Nat :=
  let own := fun (x : Nat) => match s.bundleLinkOn die x with
    | some k => some k
    | none => s.bundleLinkOn (1 - die) x
  match own slot with
  | some k => some k
  | none =>
    match s.relayTo slot with
    | some q => own q
    | none => none

/-- The entry the keeper builds for a key at a router (R208). -/
def State.entryOf (s : State) (die p key : Nat) : Nat :=
  let out := s.routerOut die
  let far := s.routerOut (1 - die)
  if key < 0x18 then
    match s.physOf die key with
    | some q => entryTo out p q 0
    | none => 0xF
  else if key < 0x30 then
    match s.physOf (1 - die) (key - 0x18) with
    | some _ => entryAcross out far p
    | none => 0xF
  else if key < 0x40 then
    match s.homeLink die (key - 0x30) with
    | some k => if k / 24 = die then entryTo out p (stationPhys (k % 24)) (5 + k % 2) else entryAcross out far p
    | none => 0xF
  else if key < 0x58 then entryTo out p (key - 0x40) 0
  else if key < 0x5C then entryTo out p (6 * (key - 0x58) + 5) 7
  else if key < 0x62 then entryTo out p (key - 0x5C) 5
  else if key < 0x68 then entryTo out p (18 + (key - 0x62)) 5
  else if key = 0x68 then (if die = 0 then entryTo out p 6 5 else 0xF)
  else if key = 0x69 then entryAcross out far p
  else 0xF

/-- The keeper writes one version of every router's table, but of a router out of service. -/
def State.buildTables (s : State) (die ver : Nat) : State :=
  (List.range 24).foldl (fun s p =>
    if s.routerOut die p then s
    else
      let r := s.router die p
      let rt := (List.range 0x6A).foldl (fun (t : Tab (BitVec 5)) k =>
        Tab.set 15 t (ver * 128 + k) (BitVec.ofNat 5 (s.entryOf die p k))) r.rt
      s.setRouter die p { r with rt := rt }) s

def epochBit (b : Bool) : Nat := if b then 1 else 0

/-- Change routes on a die (R209): the tables of the version that is not current, and a flip announced; during
a drain the change waits for its end (notes/assumptions/17.md). -/
def State.reroute (s : State) (die : Nat) : State :=
  let d := s.dieOf die
  if d.draining then s.setDie die { d with rewant := true }
  else
    let s := s.buildTables die (1 - epochBit d.epoch)
    s.setDie die { s.dieOf die with flipAt := some (d.flipAt.getD (s.topBeat + 48)) }

/-- Change routes on a die and flip its epoch on this beat, with the change of the map that comes with it (R27, R209). -/
def State.flipNow (s : State) (die : Nat) : State :=
  let d := s.dieOf die
  let s := s.buildTables die (1 - epochBit d.epoch)
  s.setDie die { d with epoch := !d.epoch, flipAt := none, draining := true, drainFrom := s.topBeat }

def State.rerouteBoth (s : State) : State := (s.reroute 0).reroute 1

/-! Packets (R203, R208). -/

def addrSlot (a : Nat) : Nat := a / 2 ^ 44 % 16
def addrDie (a : Nat) : Nat := a / 2 ^ 43 % 2
def addrCluster (a : Nat) : Nat := a / 2 ^ 38 % 32
def addrSpace (a : Nat) : Nat := a / 2 ^ 36 % 4
def addrOff (a : Nat) : Nat := a % 2 ^ 36

/-- Whether a packet is an answer. -/
def isResponse (p : Packet) : Bool := p.op = 3 || p.op = 4

/-- The slot a packet travels to. -/
def destSlot (p : Packet) : Nat := if isResponse p then p.spkg else addrSlot p.daddr

/-- The key of a packet on a die (R208). -/
def State.destKey (s : State) (die : Nat) (p : Packet) : Nat :=
  if destSlot p ≠ s.slot then 0x30 + destSlot p
  else if isResponse p then (if p.sdie ≠ die then 0x69 else 0x40 + p.srcid)
  else if addrDie p.daddr = die then addrCluster p.daddr else 0x18 + addrCluster p.daddr

/-- The lane of a multi-lane port that carries a virtual channel (R205). -/
def portLane (lane vc : Nat) : Nat :=
  if 7 ≤ lane && lane ≤ 9 then 7 + vc % 3 else if lane = 5 || lane = 6 then 5 + vc % 2 else lane

/-- Flits a router holds of one input lane and sub-channel. -/
def Router.held (r : Router) (lane sub : Nat) : Nat := (r.bufs.filter fun b => b.lane = lane && b.sub = sub).length

/-- Whether a sender holds a credit for a sub-channel of an input lane: 4 flits each (R205). -/
def Router.room (r : Router) (lane sub : Nat) : Bool := r.held lane sub < 4

/-- The physical cluster the map in force names for a request of this package (R27); 31 for any other packet. -/
def State.decoded (s : State) (p : Packet) : Nat :=
  if isResponse p || addrSlot p.daddr ≠ s.slot then 31
  else (s.physOf (addrDie p.daddr) (addrCluster p.daddr)).getD 31

/-- A packet enters the first router of a die: it is stamped with the current epoch (R209). `phys` is what it was decoded to
at its first router. -/
def State.enter (s : State) (die phys lane sub src at_ : Nat) (p : Packet) : State :=
  let r := s.router die phys
  let p' := { p with ep := epochBit (s.dieOf die).epoch }
  s.setRouter die phys { r with bufs := r.bufs ++ [{ lane := lane, sub := sub, src := src, phys := at_, pkt := p' }] }

/-- A trailing packet or a fence waits at its injection point while a drain is pending on the die (R207). -/
def State.heldBack (s : State) (die : Nat) (p : Packet) : Bool := (p.trl || p.op = 5) && (s.dieOf die).draining

/-- Let what a router's sources have to inject into its buffers, each channel in order, while there is room (R205). What
stays is returned. -/
def State.letOut (s : State) (die phys : Nat) : List Buffered → List Buffered → State × List Buffered
  | [], kept => (s, kept.reverse)
  | b :: bs, kept =>
    let blocked := kept.any fun x => x.lane = b.lane && x.sub = b.sub
    if blocked || s.heldBack die b.pkt || !(s.router die phys).room b.lane b.sub then
      State.letOut s die phys bs (b :: kept)
    else State.letOut (s.enter die phys b.lane b.sub b.src b.phys b.pkt) die phys bs kept

def State.pumpRouter (s : State) (die phys : Nat) : State :=
  let (t, kept) := s.letOut die phys (s.router die phys).outbox []
  t.setRouter die phys { t.router die phys with outbox := kept }

/-- A source of a router injects a packet, at once where there is room. -/
def State.inject (s : State) (die phys lane sub src : Nat) (p : Packet) : State :=
  let r := s.router die phys
  let b : Buffered := { lane := lane, sub := sub, src := src, phys := s.decoded p, pkt := p }
  (s.setRouter die phys { r with outbox := r.outbox ++ [b] }).pumpRouter die phys

/-- The answer to a request (R204). -/
def answerTo (p : Packet) (status : Status) (data : List Byte) : Packet :=
  { p with op := if p.op = 2 then 3 else 4, vc := 2, trl := false, len := data.length,
           status := status.code % 16, data := data }

/-- Where an answer of a router is injected: at the router, or for one out of service at the first of its neighbours in
service, on the lane from it (R210, R212). -/
def State.answerSite (s : State) (die phys lane : Nat) : Option (Nat × Nat × Nat) :=
  if !s.routerOut die phys then some (die, phys, lane)
  else (([1, 2, 3, 4, 7].filterMap fun k => laneNext die phys k).filter fun x => !s.routerOut x.1 x.2.1).head?

/-- Answer a request from a router: the answer enters on the lane given; a response or a FENCE has none. -/
def State.respond (s : State) (die phys lane : Nat) (p : Packet) (status : Status) (data : List Byte) : State :=
  if p.op = 1 || p.op = 2 then
    match s.answerSite die phys lane with
    | some (d, q, l) => s.inject d q l 6 q (answerTo p status data)
    | none => s
  else s

/-- Answer with FAULT and count the event (R211). -/
def State.faultAnswer (s : State) (die phys lane : Nat) (p : Packet) : State :=
  let s := s.countBnet die phys 0x2C 1
  let s := s.record die 1 0x17 (some p.tenant) phys (s.beatNow p.tenant) (BitVec.ofNat 64 p.daddr) false
  s.respond die phys lane p .fault []

/-- A request that is refused at its first router with BOUNDS: an absent cluster or the die block, an offset beyond the
scratchpad or, in unit-local space, beyond the data SRAM, another space, a slot that is not listed (R8, R26, R37, R213). -/
def State.refusedAt (s : State) (p : Packet) : Bool :=
  if isResponse p then false
  else if addrSlot p.daddr = s.slot then
    1 < addrSpace p.daddr || (if addrSpace p.daddr = 0 then 2 ^ 26 else 0x10000) ≤ addrOff p.daddr ||
      (s.physOf (addrDie p.daddr) (addrCluster p.daddr)).isNone
  else
    match s.board with
    | some b => !b.slots.contains (addrSlot p.daddr)
    | none => true

/-- A packet enters a die at a source, judged there. -/
def State.takeIn (s : State) (die phys lane sub src : Nat) (p : Packet) : State :=
  if s.refusedAt p then s.respond die phys lane p .bounds [] else s.enter die phys lane sub src (s.decoded p) p

/-- Let waiting packets in at a station's router, each channel in order, while there is room; a trailing
packet and its fences wait while a drain is pending (R205, R207). What stays is returned. -/
def State.letIn (s : State) (die phys src : Nat) (sub : Packet → Nat) : List Packet → List Packet →
    State × List Packet
  | [], kept => (s, kept.reverse)
  | p :: ps, kept =>
    let lane := portLane 5 p.vc
    let blocked := kept.any fun q => q.vc = p.vc
    if s.heldBack die p || blocked || !(s.router die phys).room lane (sub p) then State.letIn s die phys src sub ps (p :: kept)
    else State.letIn (s.takeIn die phys lane (sub p) src p) die phys src sub ps kept

/-- The Ethernet station's injection (SRCID 40). -/
def State.pumpEth (s : State) : State :=
  let (t, kept) := s.letIn 0 6 40 (fun p => 3 * p.vc) s.eth.inbox []
  { t with eth := { t.eth with inbox := kept } }

/-- SRCID of a link station (R203). -/
def linkSrc (link : Nat) : Nat := if link < 12 then 28 + link / 2 else 34 + (link - 12) / 2

/-- The sub-channel a packet takes on the package it reaches over a link: detour for through-traffic and for a
packet that was relayed, else before-bridge (R259; notes/assumptions/18.md). -/
def relaySub (own peer : Nat) (p : Packet) : Nat :=
  let from_ := if isResponse p then addrSlot p.daddr else p.spkg
  if destSlot p ≠ own || from_ ≠ peer then 3 * p.vc + 2 else 3 * p.vc

/-- The slot of a link's peer. -/
def Link.peerSlot (l : Link) : Nat :=
  match l.peer with
  | some p => p.slot
  | none => 0

/-- A link station's injection: each packet that leaves the receive buffer owes the peer a credit (R248). -/
def State.pumpLink (s : State) (die link : Nat) : State :=
  let l := s.link die link
  let sub := relaySub s.slot l.peerSlot
  let (t, kept) := s.letIn die (stationPhys link) (linkSrc link) sub l.rxPackets []
  let count := fun (ps : List Packet) (k : Nat) => ps.countP fun p => sub p = k
  let owed := (List.range 12).foldl (fun o k =>
    Tab.modify 0 o k (· + (count l.rxPackets k - count kept k))) l.owed
  t.setLink die link { l with rxPackets := kept, owed := owed }

/-! The ephemeris (R197 to R199). -/

/-- The partition registers of a router: BASE, PERIOD, VALID, tenant, output and input grants. -/
structure PartCfg where
  base : Nat
  period : Nat
  valid : Bool
  tenant : Nat
  outs : Nat
  ins : Nat
  deriving DecidableEq, Repr

def State.partition (s : State) (die phys n : Nat) : PartCfg :=
  let site := clSite die phys
  let c := s.reg site (0x6040 + 4 * n) 0
  let g := s.reg site (0x60C0 + 4 * n) 0
  { base := bitsOf c 0 12, period := bitsOf c 12 12 + 1, valid := c.getLsbD 24,
    tenant := bitsOf (s.reg site (0x6080 + 4 * n) 0) 0 8, outs := bitsOf g 0 10, ins := bitsOf g 16 10 }

def bitSet (m k : Nat) : Bool := m / 2 ^ k % 2 = 1

/-- An entry as the router holds it; unwritten entries read all ones. -/
def Router.entry (r : Router) (i : Nat) : BitVec 40 := Tab.get 0xFFFFFFFFFF r.eph i

/-- The input lane a partition switches to an output lane on a plate beat: none outside its output grant, for
the code 0xF or a reserved code, and for an input outside its input grant (R197 to R199). -/
def PartCfg.feeds (c : PartCfg) (r : Router) (beat lane : Nat) : Option Nat :=
  let e := r.entry ((c.base + beat % c.period) % 4096)
  let i := e.toNat / 16 ^ lane % 16
  if c.valid && bitSet c.outs lane && i < 10 && bitSet c.ins i && i ≠ lane then some i else none

/-- The outputs a partition feeds on a plate beat, with their inputs. -/
def PartCfg.named (c : PartCfg) (r : Router) (beat : Nat) : List (Nat × Nat) :=
  (List.range 10).filterMap fun k => (c.feeds r beat k).map fun i => (k, i)

end Sys2Proof.Machine
end

