-- ==== Sys2Proof/Machine/Boot.lean ====
section
/-!
DEFINITION. Pins, references, First Light and the test access port (R383 to R398, R429 to R440). A stage
that has no row of its own completes with the event that follows it (notes/assumptions/11.md).
-/

namespace Sys2Proof.Machine

/-! Off (R369, R430, R438). -/

/-- The package becomes Off: nothing is kept but the persistent material, the lands and the TAP. The status
lands are released, or read 0b000 after a trip. -/
def State.goOff (s : State) : State :=
  let c := State.cold s.part
    { s.pins with pkgStat := if s.pins.thermtrip then 0 else 7, slewAvs := 0, slewTdo := 0, slewStat := 0,
                  rail0 := 0, rail1 := 0, rail2 := 0, transition := 0 }
  { c with power := { c.power with st := .off }, tap := s.tap, fresh := s.fresh,
           boot := { c.boot with entropyUsed := s.boot.entropyUsed } }

/-- Whether First Light may begin: supplies and reset as R388 and R430 ask, no trip latched (R438), no
boundary scan (R440). -/
def State.mayBoot (s : State) : Bool :=
  s.pins.pwrgd && s.pins.resetN && s.pins.vddAon && s.pins.refAon && !s.pins.thermtrip && !s.tap.holdsOff

/-- First Light begins at stage ID (R388), the straps read as the slot (R437). -/
def State.firstLight (s : State) (slot : Nat) : State :=
  let c := State.cold s.part { s.pins with pkgStat := 6, slot := slot % 16, transition := 30 }
  { c with tap := s.tap, fresh := s.fresh, boot := { Boot.init with entropyUsed := s.boot.entropyUsed } }

/-- A package fault of First Light (R388): PKG_STAT 0b001 and the code in KPR_BOOT ERR. -/
def State.bootFault (s : State) (err : Nat) : State :=
  { s with pins := { s.pins with pkgStat := 1 }, boot := { s.boot with err := err } }

/-- Whether First Light has stopped on a package fault. -/
def State.bootStopped (s : State) : Bool := s.pins.pkgStat = 1

/-- PWRGD_FALL (R430). -/
def execPwrgdFall (s : State) : Host.Outcome State Fault Refusal :=
  done s { s.goOff with pins := { s.goOff.pins with pwrgd := false } }

/-- RESET_ASSERT (R430): the rails are written to 0 V. -/
def execResetAssert (s : State) : Host.Outcome State Fault Refusal :=
  done s { s.goOff with pins := { s.goOff.pins with resetN := false } }

/-- The supplies and the always-on reference are within limits when the board raises PWRGD or releases
RESET_N (R429; notes/assumptions/11.md). -/
def State.suppliesGood (s : State) : State := { s with pins := { s.pins with vddAon := true, refAon := true } }

/-- RESET_RELEASE (R388, R430): with PWRGD high, First Light begins at stage ID. -/
def execResetRelease (straps : Nat) (s : State) : Host.Outcome State Fault Refusal :=
  done s (
    if s.pins.resetN then s
    else
      let s := { s with pins := { s.pins with resetN := true } }
      if !s.pins.pwrgd then s
      else
        let s := s.suppliesGood
        if s.mayBoot then s.firstLight straps else s)

/-- PWRGD_RISE (R388): First Light begins when the reset land is already released. -/
def execPwrgdRise (straps : Nat) (s : State) : Host.Outcome State Fault Refusal :=
  done s (
    if s.pins.pwrgd then s
    else
      let s := { s with pins := { s.pins with pwrgd := true, refEth := true, refUlb0 := true, refUlb1 := true } }
      let s := s.suppliesGood
      if s.mayBoot then s.firstLight straps else s)

/-- REF_AON_LOSS (R433): the package is Off. -/
def execRefAonLoss (s : State) : Host.Outcome State Fault Refusal :=
  done s { s.goOff with pins := { s.goOff.pins with refAon := false } }

/-- VDD_AON_LOSS (R431, R438): Off at once; the trip latch clears. -/
def execVddAonLoss (s : State) : Host.Outcome State Fault Refusal :=
  let s' := { s with pins := { s.pins with thermtrip := false } }
  done s { s'.goOff with pins := { s'.goOff.pins with vddAon := false } }

/-- THERMAL_TRIP (R438): in any state but Off, the latch is set and the package is Off. -/
def execThermalTrip (_die _sensor : Nat) (s : State) : Host.Outcome State Fault Refusal :=
  done s (
    if s.power.st = .off then s
    else
      let s' := { s with pins := { s.pins with thermtrip := true } }
      s'.goOff)

/-! JTAG (R440). -/

/-- IDCODE of a grade and stepping. -/
def idcodeOf (grade step : Nat) : Word :=
  BitVec.ofNat 32 ((if step = 0xB0 then 2 else 1) * 268435456 + grade * 4096 + 0x2E5 * 2 + 1)

/-- Select an instruction; the boundary-scan instructions take the package to Off (R440). -/
def State.tapSelect (s : State) (ir : Nat) (out : Option Word) (scan : Bool) : State :=
  let t := if scan then s.goOff else s
  { t with tap := { ir := ir, dataOut := out, holdsOff := s.tap.holdsOff || scan } }

/-- TAP_RESET: IDCODE is selected; after a boundary scan First Light begins at stage ID. -/
def execTapReset (s : State) : Host.Outcome State Fault Refusal :=
  let t := { s with tap := { ir := 1, dataOut := some (idcodeOf s.part.grade s.part.step), holdsOff := false } }
  done s (if s.tap.holdsOff && t.mayBoot then t.firstLight s.pins.slot else t)

def execIdcode (s : State) : Host.Outcome State Fault Refusal :=
  done s (s.tapSelect 0x01 (some (idcodeOf s.part.grade s.part.step)) false)

def execSamplePreload (s : State) : Host.Outcome State Fault Refusal := done s (s.tapSelect 0x02 none false)

def execExtest (s : State) : Host.Outcome State Fault Refusal := done s (s.tapSelect 0x03 none true)

def execClamp (s : State) : Host.Outcome State Fault Refusal := done s (s.tapSelect 0x04 none true)

def execHighz (s : State) : Host.Outcome State Fault Refusal := done s (s.tapSelect 0x05 none true)

def execExtestPulse (s : State) : Host.Outcome State Fault Refusal := done s (s.tapSelect 0x06 none true)

def execExtestTrain (s : State) : Host.Outcome State Fault Refusal := done s (s.tapSelect 0x07 none true)

def execBypass (s : State) : Host.Outcome State Fault Refusal := done s (s.tapSelect 0xFF none false)

/-! Sessions (R279) and the boot session (R389). -/

/-- A session as HELLO or First Light opens it; SEQ 1 is the first packet's number (R279). -/
def Session.opened (id ackt half : Nat) : Session :=
  { id := id, ackseq := 0, heldOoo := [], queue := [], txseq := 0, ackCtr := 0, unacked := [], acks := [], ackt := ackt,
    lost := false, half := half, src := none }

/-- Open the boot session: a random SESSION identifier, its first packet to ff02::1 (R383, R389). -/
def State.openBootSession (s : State) : State :=
  let t := s.tenant 0
  let id := (Config.entropy s.boot.entropyUsed).toNat
  let half := if s.eth.upA then 0 else 1
  let x := { Session.opened id 8 half with src := some { ip := .v6 0xFF020000000000000000000000000001, port := 0x4B0E } }
  let s := s.setTenant 0 { t with session := some x, opening := none }
  { s with boot := { s.boot with entropyUsed := s.boot.entropyUsed + 1, session := id } }

/-- The margin class of a largest MAXSYM (R395). -/
def marginClass (m : Nat) : Nat :=
  if m = 0 then 7 else if m ≤ 2 then 6 else if m ≤ 4 then 5 else if m ≤ 6 then 4 else if m ≤ 9 then 3
  else if m ≤ 12 then 2 else if m ≤ 15 then 1 else 0

/-- A link has completed IDENT since First Light (R395). -/
def Link.identified (l : Link) : Bool := l.peer.isSome && l.st ≠ .ident && l.st ≠ .signal

/-- The largest MAXSYM of the last 1 ms. -/
def Link.worstMargin (l : Link) (now : DWord) : Nat :=
  (l.margins.filter fun m => !reached now (m.1 + nsUnits 1000000)).foldl (fun m x => if m < x.2 then x.2 else m) 0

/-- The lowest margin class of any identified link; 0 with none. -/
def State.marginClass (s : State) : Nat :=
  let ls := s.links.filter fun e => e.2.identified
  if ls.isEmpty then 0
  else ls.foldl (fun m e =>
    let c := Sys2Proof.Machine.marginClass (e.2.worstMargin s.clock.sid)
    if c < m then c else m) 7

/-- Measured voltage of rail n of a die; the two dies' six rails stand at die × 6 + n (R382). -/
def State.railMv (s : State) (die n : Nat) : Nat := Tab.get 0 s.power.mv (die * 6 + n)

/-- Temperature of a sensor in 1/16 °C. -/
def State.tempOf (s : State) (die k : Nat) : Int := Tab.get 0 s.power.temp (die * 32 + k)

def State.hottest (s : State) : Int :=
  (List.range 64).foldl (fun m k => if m < Tab.get 0 s.power.temp k then Tab.get 0 s.power.temp k else m) (s.tempOf 0 0)

/-- Physical clusters of a die that failed self-test. -/
def State.failedClusters (s : State) (die : Nat) : Nat :=
  ((List.range 24).filter fun p => 2 ≤ s.pstate die p).length

/-- The SELF field of a BOOTREQ (R394). -/
def State.selfReport (s : State) : List Byte :=
  let smin := (List.range 8).foldl (fun m r =>
    let x := (s.region r).smin
    if x < m then x else m) (s.region 0).smin
  let bad := s.clusters.foldl (fun n e =>
    n + ((List.range 4).filter fun i => (e.2.slice i).fail).length) 0
  let reasons := s.links.foldl (fun n e => if e.2.reason ≠ 0 then n + 2 ^ e.1 else n) 0
  (List.range 6).foldr (fun n bs => leBytes 2 (s.railMv 0 n) ++ bs) [] ++
    leBytes 2 (s.hottest % 65536).toNat ++ leBytes 2 smin ++
    leBytes 1 (s.failedClusters 0) ++ leBytes 1 (s.failedClusters 1) ++ leBytes 2 bad ++
    leBytes 8 reasons ++ leBytes 1 s.marginClass ++ leBytes 19 0

/-- A BOOTREQ of the object wanted (R389). -/
def State.bootRequest (s : State) : State :=
  let s := { s with boot := { s.boot with tries := s.boot.tries + 1, requests := s.boot.requests + 1,
                                          lastRequest := s.clock.sid } }
  s.sendPacket 0 0x6 (leBytes 8 s.part.serial.toNat ++ leBytes 1 s.pins.pkgStat ++ leBytes 1 s.boot.want ++
    leBytes 2 s.boot.err ++ leBytes 4 s.boot.tries ++ s.selfReport ++ leBytes 960 0)

/-- The work of stage ID (R384, R385, R388): the identity record and the keys, then stage NET. -/
def State.identify (s : State) : State :=
  if s.boot.stage ≠ 0 || s.bootStopped || s.power.st = .off then s
  else if !s.part.recordOk then s.bootFault 0x11
  else if s.part.recordGrade ≠ s.part.grade || s.part.recordStep ≠ s.part.step then s.bootFault 0x12
  else if !s.part.pufOk then s.bootFault 0x13
  else
    let m := Tab.set 0 (Tab.set 0 s.fw.meas 0 s.part.romDigest) 1 s.part.recordDigest
    { s with pins := { s.pins with pkgStat := 5 }, boot := { s.boot with stage := 1 },
             fw := { s.fw with meas := m } }

/-- PORT_MODE_SEARCH (R390): while no link is up, the boot ROM alternates the port mode each second, 1.6
Tb/s first. -/
def execPortModeSearch (s : State) : Host.Outcome State Fault Refusal :=
  done s (
    let s := s.identify
    if s.boot.stage = 1 && !s.eth.upA && !s.eth.upB then
      { s with eth := { s.eth with dual := s.boot.searchMode % 2 = 1 },
               boot := { s.boot with searchMode := s.boot.searchMode + 1 } }
    else s)

/-- Stage NET ends when the port is up: the boot session opens and Meridian is requested (R388, R389). -/
def State.startFetch (s : State) : State :=
  if s.boot.stage = 1 && (s.eth.upA || s.eth.upB) then
    let s := { s with boot := { s.boot with stage := 2, want := 1, tries := 0, fails := 0 } }
    s.openBootSession.bootRequest
  else s

/-- ETH_RETRAIN_DONE (R274, R390): the port, or the halves that trained, come up. -/
def execEthRetrainDone (upA upB : Bool) (s : State) : Host.Outcome State Fault Refusal :=
  done s (
    let s := s.identify
    if s.power.st = .off || !s.pins.refEth then s
    else
      let s := { s with eth := { s.eth with upA := upA, upB := upB && s.eth.dual } }
      s.startFetch)

/-- The interval before a BOOTREQ is sent again: 2 s, and 64 s after 8 failures (R389). -/
def Boot.interval (b : Boot) : Nat := if b.fails < 8 then 2000000000 else 64000000000

/-- Whether an object is being fetched: in FETCH, or Almanac again after a restart (R397). -/
def State.fetching (s : State) : Bool :=
  !s.bootStopped && (s.boot.stage = 2 || (s.boot.stage = 6 && !s.fw.almanacUp))

/-- BOOTREQ_TIMEOUT (R389). -/
def execBootreqTimeout (s : State) : Host.Outcome State Fault Refusal :=
  done s (
    if s.fetching && s.elapsed s.boot.lastRequest s.boot.interval then
      let s := { s with boot := { s.boot with fails := s.boot.fails + 1 } }
      s.bootRequest
    else s)

/-! Images (R386, R387). -/

/-- An image's fields. -/
structure Image where
  magic : Nat
  kind : Nat
  vkey : Nat
  svn : Nat
  version : Nat
  blen : Nat
  load : Nat
  entry : Nat
  zero : Bool
  len : Nat
  deriving DecidableEq, Repr

def parseImage (bs : List Byte) : Image :=
  let at_ := fun (lo n : Nat) => leNat ((bs.drop lo).take n)
  { magic := at_ 0 4, kind := at_ 4 1, vkey := at_ 5 1, svn := at_ 6 2, version := at_ 8 4, blen := at_ 12 4,
    load := at_ 16 4, entry := at_ 20 4, zero := at_ 24 40 = 0, len := bs.length }

/-- The header is legal (R386). -/
def Image.legal (i : Image) (want : Nat) : Bool :=
  i.magic = 0x4E494D4F && i.kind = want && i.vkey < 4 &&
    i.blen ≤ (if i.kind = 1 then 0x10000 else 0xC00000) && i.load ≤ i.entry && i.entry < i.load + i.blen &&
    i.zero && i.len = 64 + i.blen + 384 + 16224

/-- The vendor pair whose digest the keys hash to is known and not revoked (R387). -/
def State.vendorOk (s : State) (vkey : Nat) (rsa slh : List Byte) : Bool :=
  vkey < 4 && Config.sha384 (rsa ++ slh) = Tab.get 0 s.part.vendor vkey && s.part.revoked / 2 ^ vkey % 2 = 0

/-- The error code of an image, 0 when it is accepted (R387, R402). -/
def State.imageError (s : State) (rsa slh bs : List Byte) : Nat :=
  let i := parseImage bs
  let d := Config.sha384 (bs.take (64 + i.blen))
  if !i.legal s.boot.want then 0x21
  else if !s.vendorOk i.vkey rsa slh then 0x22
  else if i.svn < s.part.fwmin then 0x23
  else if !Config.rsaVerify rsa d ((bs.drop (64 + i.blen)).take 384) then 0x24
  else if !Config.slhVerify slh d (bs.drop (64 + i.blen + 384)) then 0x25
  else 0

/-- Ask for the next object. -/
def State.wantNext (s : State) (want : Nat) : State :=
  let s := { s with boot := { s.boot with want := want, tries := 0, fails := 0 } }
  s.bootRequest

/-- An object failed its checks: counted and fetched again, at once while the interval is 2 s and else
when BOOTREQ_TIMEOUT says so (R389; notes/assumptions/12.md). -/
def State.objectFailed (s : State) (err : Nat) : State :=
  let s := { s with boot := { s.boot with err := err, fails := s.boot.fails + 1 } }
  if s.boot.fails < 8 then s.bootRequest else s

/-- An accepted image (R387, R400): Meridian, then Almanac, then the operator record; an Almanac fetched
again after READY is restarted (R397). -/
def State.takeImage (s : State) (bs : List Byte) : State :=
  let i := parseImage bs
  let d := Config.sha384 (bs.take (64 + i.blen))
  if s.boot.want = 1 then
    let s := { s with boot := { s.boot with meridianSvn := i.svn },
                      fw := { s.fw with verM := BitVec.ofNat 32 i.version, meas := Tab.set 0 s.fw.meas 2 d } }
    s.wantNext 2
  else
    let s := { s with boot := { s.boot with almanacSvn := i.svn },
                      fw := { s.fw with verA := BitVec.ofNat 32 i.version, meas := Tab.set 0 s.fw.meas 3 d } }
    if s.boot.stage = 6 then
      let s := s.noteCount (dieSite 0) 0x7014 s.fw.arest 1
      { s with fw := { s.fw with almanacUp := true, arest := satAdd s.fw.arest 1 },
               boot := { s.boot with tries := 0, fails := 0 } }
    else s.wantNext 3

/-! The operator record (R391). -/

/-- Whether an ownership record holds for this package, before the operator's keys are looked at. -/
def State.ownershipOk (s : State) (o : OwnerRecord) : Bool :=
  s.vendorOk o.vkey o.rsaKey o.slhKey && s.part.fwmin ≤ o.svn &&
    Config.rsaVerify o.rsaKey (Config.sha384 o.body) o.rsaSig &&
    Config.slhVerify o.slhKey (Config.sha384 o.body) o.slhSig && o.serial = s.part.serial

/-- The operator record's own signatures. -/
def operatorSigned (r : OperatorRecord) : Bool :=
  Config.rsaVerify r.rsaKey (Config.sha384 r.body) r.rsaSig &&
    Config.slhVerify r.slhKey (Config.sha384 r.body) r.slhSig

/-- Whether Meridian accepts the record: by the present owner's digest, or on a blank package by a
vendor-signed ownership record. -/
def State.operatorOk (s : State) (r : OperatorRecord) : Bool :=
  let keys := Config.sha384 (r.rsaKey ++ r.slhKey)
  operatorSigned r && 1 ≤ r.keyid && r.keyid ≤ 255 && r.signers.length ≤ 64 &&
    (Config.oaepUnwrap s.part.serial.toNat r.wrappedKey).isSome &&
    match s.part.owner with
    | some d => d = keys
    | none =>
      match r.ownerChange with
      | some o => s.ownershipOk o && keys = o.newOwner
      | none => false

/-- The bytes measurement 5 covers: the signer set, entry by entry (R391, R400). -/
def signerBytes (xs : List Signer) : List Byte :=
  xs.foldr (fun x bs => leBytes 8 x.signer.toNat ++ x.rsaKey ++ x.slhKey ++ leBytes 32 x.tenants.toNat ++ bs) []

/-- Change the port mode: a change retrains the port (R274). -/
def State.setEthMode (s : State) (dual : Bool) : State :=
  if s.eth.dual = dual then s else { s with eth := { s.eth with dual := dual, upA := false, upB := false } }

/-- V(F) of a region at a ladder step (R366). -/
def Part.vOf (p : Part) (region k : Nat) : Nat := Tab.get 700 p.vf (region * 17 + k)

/-- CLK_GOV of a die. -/
def State.clkGov (s : State) (die : Nat) : Word := s.reg (dieSite die) 0x000C 0x3CE183

/-- The VDD_CORE target of a die for given ladder steps (R366). -/
def State.coreTarget (s : State) (die : Nat) (k : Nat → Nat) : Nat :=
  let v := (List.range 4).foldl (fun m r =>
    let x := s.part.vOf (die * 4 + r) (k (die * 4 + r))
    if m < x then x else m) 0
  let t := v + bitsOf (s.clkGov die) 18 8
  if t < 600 then 600 else if 900 < t then 900 else t

/-- Write the AVSBus rails for the regions' present steps; VDD_SRAM at 0.75 V. -/
def State.writeRails (s : State) : State :=
  let k := fun r => (s.region r).k
  { s with pins := { s.pins with rail0 := s.coreTarget 0 k, rail1 := s.coreTarget 1 k, rail2 := 750 } }

/-- Start every region's ADPLL at a ladder step, all beats equal (R378, R392). -/
def State.startRegions (s : State) (k : Nat) : State :=
  let top := s.regions.foldl (fun m e => if m < e.2.beat then e.2.beat else m) 0
  (List.range 8).foldl (fun s r =>
    let x := s.region r
    s.setRegion r { x with k := k, lock := true, gated := false, pendUp := false, beat := top }) s

/-- Apply the operator record (R391) and go through START to TEST (R388, R392). -/
def State.applyOperator (s : State) (r : OperatorRecord) : State :=
  let key := (Config.oaepUnwrap s.part.serial.toNat r.wrappedKey).getD 0
  let owner := match r.ownerChange with
    | some o => if s.ownershipOk o then some o.newOwner else s.part.owner
    | none => s.part.owner
  let part := { s.part with owner := owner, fwmin := if s.part.fwmin < r.fwmin then r.fwmin else s.part.fwmin }
  let t := s.tenant 0
  let s := s.setTenant 0 { t with keys := [(r.keyid, key)], keyid := r.keyid, session := none, opening := none }
  let meas := Tab.set 0 (Tab.set 0 (Tab.set 0 s.fw.meas 4 (Config.sha384 r.body)) 5
    (Config.sha384 (signerBytes r.signers))) 10 (Config.sha384 (r.rsaKey ++ r.slhKey))
  let s := { s with part := part, fw := { s.fw with signers := r.signers, meas := meas, almanacUp := true },
                    eth := { s.eth with octport := r.octport, addresses := r.addresses },
                    boot := { s.boot with bootKey := false, stage := 4, tries := 0, fails := 0, err := 0 },
                    pins := { s.pins with pkgStat := 3 } }
  let s := match r.portMode with
    | some m => s.setEthMode (m = 1)
    | none => s
  (s.startRegions 16).writeRails

/-- A revocation notice (R391): the mask only grows. -/
def State.takeRevocation (s : State) (r : Revocation) : State :=
  if s.vendorOk r.vkey r.rsaKey r.slhKey && Config.rsaVerify r.rsaKey (Config.sha384 r.body) r.rsaSig &&
      Config.slhVerify r.slhKey (Config.sha384 r.body) r.slhSig
  then { s with part := { s.part with revoked := s.part.revoked ||| r.mask % 16 } } else s

/-- BOOT_OBJECT_RECEIVE (R387, R389, R391). -/
def execBootObjectReceive (o : BootObject) (s : State) : Host.Outcome State Fault Refusal :=
  doneFused s (
    if !s.fetching then s
    else
      match o with
      | .revocation r => s.takeRevocation r
      | .image rsa slh bs =>
        if s.boot.want = 1 || s.boot.want = 2 then
          let e := s.imageError rsa slh bs
          if e = 0 then s.takeImage bs else s.objectFailed e
        else s.objectFailed 0x26
      | .operator r =>
        if s.boot.want = 3 then
          if s.operatorOk r then s.applyOperator r else s.objectFailed 0x26
        else s.objectFailed 0x21)

/-! Self-test to READY (R392, R393, R388). -/

/-- A slice after self-test: its repair figures; a passing slice of a passing cluster is opened from OFF
(R189, R194). -/
def openedSlice (f : SliceFinding) (on : Bool) (beat : Nat) (x : Slice) : Slice :=
  { x with rows := spareRows f, cols := spareCols f, fail := sliceFail f, target := if on then .on else x.target,
           st := if on then .opening else x.st, fromOff := true, since := beat }

/-- What self-test found of a cluster; nothing found means no spare used. -/
def findingOf (fs : List ClusterFinding) (die p : Nat) : ClusterFinding :=
  (fs.find? fun f => f.die = die && f.phys = p).getD
    { die := die, phys := p, coreOk := true, routerOk := true, slices := [], monitorOk := true }

def State.openSlices (s : State) (fs : List ClusterFinding) : State :=
  (List.range 48).foldl (fun s n =>
    let die := n / 24
    let p := n % 24
    let f := findingOf fs die p
    let beat := (s.region (regionKey die p)).beat
    let on := clusterState fs die p = 0
    let c := (List.range 4).foldl (fun (c : Cluster) i =>
      c.setSlice i (openedSlice (f.slices.getD i { banks := [] }) on beat (c.slice i)))
      (s.cluster die p)
    s.setCluster die p c) s

/-- A failed seeing monitor holds its region's governor (R393). -/
def State.noteMonitors (s : State) (fs : List ClusterFinding) : State :=
  fs.foldl (fun s f =>
    if f.monitorOk then s
    else
      let r := regionKey f.die f.phys
      s.setRegion r { s.region r with monitorFailed := true }) s

/-- SELF_TEST_COMPLETE (R388, R392, R393): a missing die 1 or a rail fault stops at TEST; else the map is
published, the governor starts at 856.25 MHz, slices open, and the package is READY. -/
def execSelfTestComplete (findings : List ClusterFinding) (die1Ok railsOk : Bool) (s : State) :
    Host.Outcome State Fault Refusal :=
  done s (
    if s.boot.stage ≠ 4 || s.bootStopped then s
    else if !die1Ok || !s.part.die1Present then s.bootFault 0x31
    else if !railsOk then s.bootFault 0x32
    else
      let s := (s.publish findings 0).publish findings 1
      let s := (((s.startRegions 1).writeRails).openSlices findings).noteMonitors findings
      let s := ((s.buildTables 0 0).buildTables 1 0).measureMap
      let s := s.setTenant 0 { s.tenant 0 with st := .opened }
      { s with boot := { s.boot with stage := 6, ready := true }, pins := { s.pins with pkgStat := 2 },
               power := { s.power with idleSince := s.clock.sid } })

/-! Watchdogs (R397, R398). -/

/-- Meridian halts, records and fetches Almanac again (R397). -/
def State.almanacDown (s : State) (detail : Nat) : State :=
  if s.boot.stage ≠ 6 || !s.fw.almanacUp then s
  else
    let s := { s with fw := { s.fw with almanacUp := false } }
    let s := s.record 0 3 0x37 none 0x1F 0 (BitVec.ofNat 64 detail) false
    let s := s.noteRecord 0 []
    let s := if (s.tenant 0).session.isSome then s else s.openBootSession
    s.wantNext 2

def execAlmanacWatchdog (s : State) : Host.Outcome State Fault Refusal := done s (s.almanacDown 1)

def execManagementCoreException (s : State) : Host.Outcome State Fault Refusal := done s (s.almanacDown 2)

/-- The package resets and First Light begins from stage ID; the sidereal counter runs on, for it stops only
in Off (R51, R398). -/
def State.restart (s : State) : State :=
  let t := s.firstLight s.pins.slot
  { t with clock := { t.clock with sid := s.clock.sid } }

def execMeridianWatchdog (s : State) : Host.Outcome State Fault Refusal :=
  done s (if s.power.st = .off then s else s.restart)

end Sys2Proof.Machine
end

