-- ==== Sys2Proof/Machine/Fp.lean ====
section
/-!
DEFINITION. Number formats (R88 to R91) and FP32 arithmetic (R94, R113, R114, R118): every operand is
an exact dyadic, an infinity or a NaN; an operation is computed exactly and rounded once.
-/

namespace Sys2Proof.Machine

/-- A decoded operand: NaN, an infinity, or ±m × 2^e exactly. -/
inductive Num where
  | nan
  | inf (neg : Bool)
  | fin (neg : Bool) (m : Nat) (e : Int)
  deriving DecidableEq, Repr

/-- The sticky flags of R103: OVF bit 0, UNF bit 1, INX bit 2, INV bit 3. -/
abbrev Flags4 := BitVec 4

def fOVF : Flags4 := 1
def fUNF : Flags4 := 2
def fINX : Flags4 := 4
def fINV : Flags4 := 8

/-- A floating-point element format (R88): mantissa bits, bias, sign position, largest finite
magnitude code, and whether the code above it is infinity. -/
structure FFmt where
  mb : Nat
  bias : Nat
  signBit : Nat
  maxCode : Nat
  hasInf : Bool
  deriving DecidableEq, Repr

def fmtE4M3 : FFmt := { mb := 3, bias := 7, signBit := 7, maxCode := 0x7E, hasInf := false }
def fmtE5M2 : FFmt := { mb := 2, bias := 15, signBit := 7, maxCode := 0x7B, hasInf := true }
def fmtE3M2 : FFmt := { mb := 2, bias := 3, signBit := 5, maxCode := 0x1F, hasInf := false }
def fmtE2M3 : FFmt := { mb := 3, bias := 1, signBit := 5, maxCode := 0x1F, hasInf := false }
def fmtE2M1 : FFmt := { mb := 1, bias := 1, signBit := 3, maxCode := 0x7, hasInf := false }
def fmtBF16 : FFmt := { mb := 7, bias := 127, signBit := 15, maxCode := 0x7F7F, hasInf := true }
def fmtFP16 : FFmt := { mb := 10, bias := 15, signBit := 15, maxCode := 0x7BFF, hasInf := true }
def fmtFP32 : FFmt := { mb := 23, bias := 127, signBit := 31, maxCode := 0x7F7FFFFF, hasInf := true }

/-- The formats of R69 by code; 8 and 9 (the integers) and reserved codes have no float format. -/
def floatFmt : Nat → Option FFmt
  | 0x0 => some fmtE4M3
  | 0x1 => some fmtE5M2
  | 0x2 => some fmtE4M3
  | 0x3 => some fmtE5M2
  | 0x4 => some fmtE3M2
  | 0x5 => some fmtE2M3
  | 0x6 => some fmtE2M1
  | 0x7 => some fmtE2M1
  | 0xA => some fmtBF16
  | 0xB => some fmtFP16
  | 0xC => some fmtFP32
  | _ => none

/-- MX formats carry an E8M0 scale per 32 elements (R69). -/
def isMx (fmt : Nat) : Bool := 2 ≤ fmt && fmt ≤ 6

def isIntFmt (fmt : Nat) : Bool := fmt = 8 || fmt = 9

/-- Stored bits of an element (R69, R90). -/
def elemBits (fmt : Nat) : Nat :=
  if fmt = 4 || fmt = 5 then 6
  else if fmt = 6 || fmt = 7 || fmt = 9 then 4
  else if fmt = 0xA || fmt = 0xB then 16
  else if fmt = 0xC then 32
  else 8

/-- Width class of R69: 0 four-bit, 1 eight-bit, 2 sixteen-bit. -/
def widthClass (fmt : Nat) : Nat :=
  if elemBits fmt = 4 then 0 else if elemBits fmt = 16 then 2 else 1

/-- Decode a floating-point code (R88, R89): subnormals keep their value, every NaN is NaN. -/
def decodeFloat (f : FFmt) (code : Nat) : Num :=
  let neg := code.testBit f.signBit
  let mag := code % 2 ^ f.signBit
  if f.maxCode < mag then
    if f.hasInf && mag = f.maxCode + 1 then .inf neg else .nan
  else
    let ex := mag / 2 ^ f.mb
    let fr := mag % 2 ^ f.mb
    if ex = 0 then .fin neg fr (1 - (f.bias : Int) - f.mb)
    else .fin neg (2 ^ f.mb + fr) ((ex : Int) - f.bias - f.mb)

/-- Decode a two's complement integer of `w` bits. -/
def decodeInt (w code : Nat) : Num :=
  let c := code % 2 ^ w
  if c.testBit (w - 1) then .fin true (2 ^ w - c) 0 else .fin false c 0

/-- Decode an element of a format of R69. -/
def decodeElem (fmt code : Nat) : Num :=
  if fmt = 8 then decodeInt 8 code
  else if fmt = 9 then decodeInt 4 code
  else match floatFmt fmt with
    | some f => decodeFloat f code
    | none => .nan

def f32 (w : Word) : Num := decodeFloat fmtFP32 w.toNat

def qnan : Word := 0x7FC00000
def infWord (neg : Bool) : Word := if neg then 0xFF800000 else 0x7F800000

/-- Whether a magnitude is rounded away: to nearest even, or by R97's generator value `r`. The part
below the retained bit is `rem` of `2^sh`; `q` is the retained integer. -/
def roundsUp (r : Option Nat) (q rem sh : Nat) : Bool :=
  match r with
  | none => 2 ^ sh < 2 * rem || (2 * rem = 2 ^ sh && q % 2 = 1)
  | some r => 2 ^ 24 ≤ (rem * 2 ^ 24) / 2 ^ sh + r

/-- Round m × 2^e to an integer multiple of 2^qe: the multiple and whether it is inexact. -/
def roundAt (r : Option Nat) (m : Nat) (e qe : Int) : Nat × Bool :=
  if qe ≤ e then (m <<< (e - qe).toNat, false)
  else
    let sh := (qe - e).toNat
    let q := m >>> sh
    let rem := m % 2 ^ sh
    (if roundsUp r q rem sh then q + 1 else q, rem ≠ 0)

/-- The magnitude code of m × 2^e in a float format, as if the exponent had no upper bound, and
whether it is inexact (R97). -/
def roundCode (f : FFmt) (r : Option Nat) (m : Nat) (e : Int) : Nat × Bool :=
  if m = 0 then (0, false)
  else
    let emin : Int := 1 - (f.bias : Int)
    let ex : Int := (Nat.log2 m : Int) + e
    let qe : Int := (if ex < emin then emin else ex) - f.mb
    let q := roundAt r m e qe
    (((qe - (emin - f.mb)).toNat <<< f.mb) + q.1, q.2)

def withSign (f : FFmt) (neg : Bool) (code : Nat) : Nat :=
  if neg && code ≠ 0 then code + 2 ^ f.signBit else code

/-- What a conversion writes (R95 step 3 to R102, R115): the code, the flags, and which counter of R450
the element enters. -/
structure Conv where
  code : Nat
  flags : Flags4
  isNan : Bool
  isSat : Bool
  deriving DecidableEq, Repr

/-- R99 for a plain (non-MX) target. -/
def nanConv (fmt : Nat) : Conv :=
  match fmt with
  | 0x0 => ⟨0x7F, 0, true, false⟩
  | 0x1 => ⟨0x7E, 0, true, false⟩
  | 0x4 => ⟨0x1F, fINV, true, false⟩
  | 0x5 => ⟨0x1F, fINV, true, false⟩
  | 0x7 => ⟨0x7, fINV, true, false⟩
  | 0x8 => ⟨0, fINV, true, false⟩
  | 0x9 => ⟨0, fINV, true, false⟩
  | 0xA => ⟨0x7FC0, 0, true, false⟩
  | 0xB => ⟨0x7E00, 0, true, false⟩
  | _ => ⟨0x7FC00000, 0, true, false⟩

/-- The largest and least codes of an integer target by sign. -/
def intBound (w : Nat) (neg : Bool) : Nat := if neg then 2 ^ (w - 1) else 2 ^ (w - 1) - 1

/-- Convert to an integer target of `w` bits (R97, R98, R115). -/
def convInt (w : Nat) (r : Option Nat) (t : Num) : Conv :=
  match t with
  | .nan => ⟨0, fINV, true, false⟩
  | .inf neg => ⟨intBound w neg, fINV, false, true⟩
  | .fin neg m e =>
    let q := roundAt r m e 0
    let lim := if neg then 2 ^ (w - 1) else 2 ^ (w - 1) - 1
    if lim < q.1 then ⟨intBound w neg, fOVF ||| fINX, false, true⟩
    else
      let inx : Flags4 := if q.2 then fINX else 0
      ⟨if neg then (2 ^ w - q.1) % 2 ^ w else q.1, inx, false, false⟩

/-- Convert to a float format (R97, R98, R100, R102, R115): `ieee` is the overflow mode. -/
def convFloat (f : FFmt) (ieee : Bool) (r : Option Nat) (t : Num) (onNan : Conv) : Conv :=
  match t with
  | .nan => onNan
  | .inf neg =>
    if ieee && f.hasInf then ⟨withSign f neg (f.maxCode + 1), 0, false, false⟩
    else ⟨withSign f neg f.maxCode, fOVF ||| fINX, false, true⟩
  | .fin neg m e =>
    let c := roundCode f r m e
    if f.maxCode < c.1 then
      if ieee && f.hasInf then ⟨withSign f neg (f.maxCode + 1), fOVF ||| fINX, false, false⟩
      else ⟨withSign f neg f.maxCode, fOVF ||| fINX, false, true⟩
    else
      let inx : Flags4 := if c.2 then fINX else 0
      let unf : Flags4 := if c.2 && c.1 < 2 ^ f.mb then fUNF else 0
      ⟨withSign f neg c.1, inx ||| unf, false, false⟩

/-- R115 for a plain target of R69: the value, overflow mode and, in stochastic mode, the generator
value. -/
def convert (fmt : Nat) (ieee : Bool) (r : Option Nat) (t : Num) : Conv :=
  if fmt = 8 then convInt 8 r t
  else if fmt = 9 then convInt 4 r t
  else match floatFmt fmt with
    | some f => convFloat f ieee r t (nanConv fmt)
    | none => nanConv fmt

/-- Round an exact value to FP32 to nearest even, subnormals kept, every zero +0: the word and OVF when
a finite value rounds beyond max. The FP32 stages raise neither INX nor UNF (R103, R118). -/
def toF32 (t : Num) : Word × Flags4 :=
  match t with
  | .nan => (qnan, 0)
  | .inf neg => (infWord neg, 0)
  | .fin neg m e =>
    let c := (roundCode fmtFP32 none m e).1
    if fmtFP32.maxCode < c then (infWord neg, fOVF)
    else (BitVec.ofNat 32 (withSign fmtFP32 neg c), 0)

/-- The signed integer ±m. -/
def signed (neg : Bool) (m : Nat) : Int := if neg then -(m : Int) else m

/-- An integer times 2^e as a dyadic. -/
def ofScaled (i : Int) (e : Int) : Num := .fin (decide (i < 0)) i.natAbs e

/-- The exact product; INV for ∞ × 0. -/
def mulNum : Num → Num → Num × Flags4
  | .nan, _ => (.nan, 0)
  | _, .nan => (.nan, 0)
  | .inf a, .inf b => (.inf (a != b), 0)
  | .inf a, .fin b m _ => if m = 0 then (.nan, fINV) else (.inf (a != b), 0)
  | .fin a m _, .inf b => if m = 0 then (.nan, fINV) else (.inf (a != b), 0)
  | .fin a m e, .fin b n d => (.fin (a != b) (m * n) (e + d), 0)

/-- The exact sum; INV for ∞ + (−∞). -/
def addNum : Num → Num → Num × Flags4
  | .nan, _ => (.nan, 0)
  | _, .nan => (.nan, 0)
  | .inf a, .inf b => if a = b then (.inf a, 0) else (.nan, fINV)
  | .inf a, .fin _ _ _ => (.inf a, 0)
  | .fin _ _ _, .inf b => (.inf b, 0)
  | .fin a m e, .fin b n d =>
    let low := if e ≤ d then e else d
    (ofScaled (signed a m * 2 ^ (e - low).toNat + signed b n * 2 ^ (d - low).toNat) low, 0)

def negNum : Num → Num
  | .nan => .nan
  | .inf a => .inf (!a)
  | .fin a m e => .fin (!a) m e

/-- FP32 addition of R94 and R113. -/
def fadd (u v : Word) : Word × Flags4 :=
  let s := addNum (f32 u) (f32 v)
  let r := toF32 s.1
  (r.1, s.2 ||| r.2)

/-- FP32 subtraction (R118). -/
def fsub (u v : Word) : Word × Flags4 :=
  let s := addNum (f32 u) (negNum (f32 v))
  let r := toF32 s.1
  (r.1, s.2 ||| r.2)

/-- FP32 multiplication (R118). -/
def fmul (u v : Word) : Word × Flags4 :=
  let s := mulNum (f32 u) (f32 v)
  let r := toF32 s.1
  (r.1, s.2 ||| r.2)

/-- Fused multiply-add of R114 and R118: ∞ × 0 raises INV even when the addend is NaN. -/
def ffma (x y z : Word) : Word × Flags4 :=
  let p := mulNum (f32 x) (f32 y)
  if p.2 ≠ 0 then (qnan, fINV)
  else
    let s := addNum p.1 (f32 z)
    let r := toF32 s.1
    (r.1, s.2 ||| r.2)

/-- A total preorder key of a number that is no NaN: −∞ lowest, both zeros equal. -/
def numLe : Num → Num → Bool
  | .nan, _ => false
  | _, .nan => false
  | .inf true, _ => true
  | _, .inf false => true
  | .inf false, _ => false
  | _, .inf true => false
  | .fin a m e, .fin b n d =>
    let low := if e ≤ d then e else d
    signed a m * 2 ^ (e - low).toNat ≤ signed b n * 2 ^ (d - low).toNat

def isNanW (w : Word) : Bool := f32 w = .nan
def isZeroW (w : Word) : Bool := w.toNat % 2147483648 = 0

/-- Replace −0 by +0. -/
def posZero (w : Word) : Word := if isZeroW w then 0 else w

/-- MAX of R118: a NaN operand gives the canonical NaN, zero results are +0. -/
def fmax (u v : Word) : Word :=
  if isNanW u || isNanW v then qnan
  else posZero (if numLe (f32 u) (f32 v) then v else u)

/-- MIN of R118. -/
def fmin (u v : Word) : Word :=
  if isNanW u || isNanW v then qnan
  else posZero (if numLe (f32 u) (f32 v) then u else v)

end Sys2Proof.Machine
end

