-- ==== Sys2Proof/Machine/Flags.lean ====
section
/-!
DEFINITION. Raising the sticky flags and the event counters of a cluster (R103, R135, R148, R450), each
with its share of the tenant's flag summary (R415).
-/

namespace Sys2Proof.Machine

/-- Raise flags in MXA_FLAGS of an array (R103) and count in CNV_NAN and CNV_SAT (R450). -/
def Arr.raise (a : Arr) (f : Flags4) (nans sats : Nat) : Arr :=
  { a with flags := a.flags ||| f, nan := satAdd a.nan nans, sat := satAdd a.sat sats }

/-- The same events in the flag summary. -/
def Summary.addMatrix (m : Summary) (f : Flags4) (nans sats : Nat) : Summary :=
  { m with mflags := m.mflags ||| f, cnvNan := satAdd m.cnvNan nans, cnvSat := satAdd m.cnvSat sats }

/-- Raise flags in VEC_FLAGS of a vector core (R135). -/
def VCore.raise (v : VCore) (f : Flags4) : VCore := { v with flags := v.flags ||| f }

def Summary.addVector (m : Summary) (f : Flags4) : Summary := { m with vflags := m.vflags ||| f }

def SelEvents.none_ : SelEvents := { nanfill := 0, goor := 0, sovf := 0, sdrop := 0, sbad := 0 }

def VCore.count (v : VCore) (e : SelEvents) : VCore :=
  { v with nanfill := satAdd v.nanfill e.nanfill, goor := satAdd v.goor e.goor,
           sovf := satAdd v.sovf e.sovf, sdrop := satAdd v.sdrop e.sdrop, sbad := satAdd v.sbad e.sbad }

def Summary.addSelection (m : Summary) (e : SelEvents) : Summary :=
  { m with nanfill := satAdd m.nanfill e.nanfill, goor := satAdd m.goor e.goor,
           sovf := satAdd m.sovf e.sovf, sdrop := satAdd m.sdrop e.sdrop, sbad := satAdd m.sbad e.sbad }

end Sys2Proof.Machine
end

