-- ==== Sys2Proof/Machine/Operands.lean ====
section
/-!
DEFINITION. What a slot reads when it issues: whether its context can issue, the parameter registers it
names (R154), the byte ranges it names with the checks at issue (R84, R107, R128, R145, R162, R171, R180,
R225), and packed elements (R90).
-/

namespace Sys2Proof.Machine

/-- What a slot that issues knows: the tenant and the plate beat. -/
structure Issuer where
  tenant : Nat
  beat : Nat
  deriving DecidableEq, Repr

/-- The tenant and plate beat of a slot at a place; none where nothing can issue there: the package is
not Active, the context is not assigned or not the one its cluster runs (R314), its tenant is not in an exposure on that region, a halt has
taken effect, the program has ended, or a wait holds the line (R153, R158, R173, R448), or the beat in
progress has ended. -/
def State.issuer (s : State) (a : Issue) : Option Issuer :=
  let k := (s.cluster a.die a.phys).ctx a.ctx
  let t := s.tenant k.tenant
  let g := regionKey a.die a.phys
  match t.run with
  | none => none
  | some r =>
    let b := Tab.get 0 r.beats g
    let live := match r.halting with
      | some x => decide (b ≤ x.h)
      | none => true
    if a.die < 2 && a.phys < 24 && a.ctx < 16 && s.power.st = .active && k.valid &&
      (s.cluster a.die a.phys).running = some a.ctx && t.st = .running && !(s.region g).ended &&
      r.phase = .inExposure && 0 < b && !r.done.contains g && live && !k.ended && k.wait.isNone
    then some { tenant := k.tenant, beat := b - 1 } else none

/-- The value of a parameter register as a slot sees it (R154). -/
def Ctx.param (k : Ctx) (p : Nat) : Word := Tab.get 0 k.params p

/-- A cluster-local scratchpad offset held in a parameter register (R74): a value above bits [25:0] lies outside the
cluster's slices (R68, notes/assumptions/25.md). -/
def Ctx.offset (k : Ctx) (p : Nat) : Nat := (k.param p).toNat

/-- A signed displacement held in a parameter register (R72, R101). -/
def Ctx.displacement (k : Ctx) (p : Nat) : Int := (k.param p).toInt

/-- A byte range a slot reads or writes: the register that supplies it, the range, and the alignment its
start must have (0 for none). -/
structure Span where
  preg : Nat
  off : Int
  len : Nat
  align : Nat
  deriving DecidableEq, Repr

/-- One aperture of the tenant, one slice, the alignment of R180. -/
def State.spanOk (s : State) (a : Issue) (tenant : Nat) (x : Span) : Bool :=
  match s.logOf a.die a.phys with
  | none => false
  | some l =>
    0 ≤ x.off && (s.tenant tenant).holds a.die l x.off.toNat x.len && inOneSlice x.off.toNat x.len &&
      (x.align = 0 || x.off.toNat % x.align = 0)

/-- DETAIL of cause 0x10 (R407). -/
def boundsDetail (kind preg : Nat) (off : Int) (ctx : Nat) : DWord :=
  BitVec.ofNat 64 (kind + preg * 16 + (off % 67108864).toNat * 1024 + ctx * 68719476736)

/-- A failed check at issue: no read, no write, the plate halts with BOUNDS on that beat (R84). -/
def State.issueBounds (s : State) (a : Issue) (i : Issuer) (kind preg : Nat) (off : Int) : State :=
  s.faultHalt a.die 1 0x10 i.tenant a.phys i.beat (boundsDetail kind preg off a.ctx) .bounds

/-- Count a corrected word of a slice in SPAD_CE (R185). -/
def State.countCe1 (s : State) (die phys n : Nat) : State :=
  let c := s.cluster die phys
  let sl := c.slice n
  (s.setCluster die phys (c.setSlice n { sl with ceCount := satAdd sl.ceCount 1 })).noteCount (clSite die phys)
    (0x5030 + 4 * n) sl.ceCount 1

/-- Count an uncorrectable word of a slice in SPAD_UE and keep its offset (R186, R187); `row` says that a read reported it,
so that its row counts for trigger 0x2 of R413. -/
def State.countUe1 (s : State) (die phys n word : Nat) (row : Bool) : State :=
  let c := s.cluster die phys
  let sl := c.slice n
  let rows := if row then (word / 64, s.clock.sid) :: sl.ueRows else sl.ueRows
  (s.setCluster die phys
    (c.setSlice n { sl with ueCount := satAdd sl.ueCount 1, ueaddr := 8 * word, ueRows := rows })).noteCount
      (clSite die phys) (0x5040 + 4 * n) sl.ueCount 1

/-- A scheduled read finds an uncorrectable word: it is recorded and counted, and the plate halts with
FAULT on the beat the data would have been usable, six after its read beat (R182, R186). -/
def State.ueHalt (s : State) (a : Issue) (i : Issuer) (word : Nat) : State :=
  let n := word / 2097152
  let off := 8 * (word % 2097152)
  let s := s.countUe1 a.die a.phys n (word % 2097152) true
  s.faultHalt a.die 1 0x13 i.tenant a.phys (i.beat + 6)
    (BitVec.ofNat 64 (off + n * 16777216 + 67108864 + a.ctx * 134217728)) .fault

/-- Count and record what the reads and partial writes of a command met: a corrected word under cause 0x01 (R185), an
uncorrectable old word under cause 0x13 (R187). Such records halt no run. `tag` is the scheduled bit
and context of cause 0x13. -/
def State.eccFlush (s : State) (die phys : Nat) (tenant : Option Nat) (beat tag : Nat) : State :=
  (List.range 4).foldl (fun s n =>
    let c := s.cluster die phys
    let sl := c.slice n
    let s := s.setCluster die phys (c.setSlice n { sl with eccLog := [] })
    sl.eccLog.foldl (fun s e =>
      let off := 8 * e.1 + n * 16777216
      if e.2 then
        (s.countUe1 die phys n e.1 false).record die 1 0x13 tenant phys beat (BitVec.ofNat 64 (off + tag)) false
      else (s.countCe1 die phys n).record die 0 0x01 tenant phys beat (BitVec.ofNat 64 off) false) s) s

/-- A scheduled operation reads ranges (offset, length) on the issuer's beat: every single-bit error is corrected and
counted (R185), and every uncorrectable word counted and recorded; the first of these halts the plate (R186). -/
def State.scan (s : State) (a : Issue) (i : Issuer) (ranges : List (Nat × Nat)) : State :=
  let c := s.cluster a.die a.phys
  let s := s.setCluster a.die a.phys (ranges.foldl (fun c x => c.countCe x.1 x.2) c)
  let s := ((ranges.map fun x => c.uesIn x.1 x.2).flatten.eraseDups).foldl (fun s w => s.ueHalt a i w) s
  s.eccFlush a.die a.phys (some i.tenant) i.beat (67108864 + a.ctx * 134217728)

/-- The context of a slot. -/
def State.ctxAt (s : State) (a : Issue) : Ctx := (s.cluster a.die a.phys).ctx a.ctx

/-- What a slot uses of the slice ports (R178, R179): the byte offset that names the slice, the port (0 data read,
1 write, 2 scale lane), and the beats, counted from the issue beat: `n` beats, `step` apart. -/
structure Use where
  off : Nat
  port : Nat
  from_ : Nat
  n : Nat
  step : Nat
  deriving DecidableEq, Repr

/-- A further condition of a slot at issue: whether it holds, the verifier's reason when it does not, and the
register and offset DETAIL then names. -/
structure Cond where
  ok : Bool
  why : Nat
  preg : Nat
  off : Int
  deriving DecidableEq, Repr

/-- What a memory slot is held to and does on the ports: its slot kind, the ranges checked at issue in order, its further
conditions in order, a range of the data window (register, address, length), its port uses, the beats from the
issue beat on which it uses the data SRAM's kind 6 port (first, count), and the last beat, from the issue beat,
on which it reads or writes. -/
structure Plan where
  kind : Nat
  spans : List Span
  conds : List Cond
  data : Option (Nat × Nat × Nat)
  uses : List Use
  dport : Option (Nat × Nat)
  ends : Nat
  deriving DecidableEq, Repr

/-- A plan of ranges alone. -/
def Plan.of (kind : Nat) (spans : List Span) : Plan :=
  { kind := kind, spans := spans, conds := [], data := none, uses := [], dport := none, ends := 0 }

/-- A read of one run on the data port from the issue beat on. -/
def Plan.reads (p : Plan) (off beats : Nat) : Plan := { p with uses := p.uses ++ [⟨off, 0, 0, beats, 1⟩] }

/-- Writes of one run on n beats from `from_` on. -/
def Plan.writes (p : Plan) (off from_ n step : Nat) : Plan := { p with uses := p.uses ++ [⟨off, 1, from_, n, step⟩] }

/-- A byte range of the context's data window (R162, R171): inside the window. -/
def Ctx.dataOk (k : Ctx) (off len : Nat) : Bool := off + len ≤ k.dsize * 1024

/-- The data range of a plan lies inside the window on a 4-byte address (R170, R171). -/
def Plan.dataOk (p : Plan) (k : Ctx) : Bool :=
  match p.data with
  | some (_, off, len) => k.dataOk off len && off % 4 = 0
  | none => true

/-- Scheduled traffic uses a slice port on region beats counted from this one (R179). -/
def State.usePort (s : State) (die phys : Nat) (u : Use) : State :=
  let c := s.cluster die phys
  let now := (s.region (regionKey die phys)).beat
  if u.n = 0 || u.port = 2 then s
  else
    s.setCluster die phys
      { c with ports := { slice := sliceOf u.off, write := u.port = 1, first := now + u.from_,
                          last := now + u.from_ + (u.n - 1) * u.step, step := u.step } :: c.ports }

/-- The data SRAM's kind 6 port is used for n beats (R171, R176). -/
def State.useData (s : State) (a : Issue) (from_ n : Nat) : State :=
  let c := s.cluster a.die a.phys
  let now := (s.region (regionKey a.die a.phys)).beat
  s.setCluster a.die a.phys { c with dport := (now + from_, now + from_ + n - 1) :: c.dport }

/-- The first check at issue that a plan fails: the data window, every span in order, the further conditions. The
register and offset for DETAIL. -/
def State.planFails (s : State) (a : Issue) (i : Issuer) (p : Plan) : Option (Nat × Int) :=
  if !p.dataOk (s.ctxAt a) then p.data.map fun d => (d.1, (d.2.1 : Int))
  else
    match p.spans.find? fun x => !s.spanOk a i.tenant x with
    | some x => some (x.preg, x.off)
    | none => (p.conds.find? fun x => !x.ok).map fun x => (x.preg, x.off)

/-- A slot uses the ports its plan names. -/
def State.takePorts (s : State) (a : Issue) (p : Plan) : State :=
  let s := p.uses.foldl (fun s u => s.usePort a.die a.phys u) s
  match p.dport with
  | some (from_, n) => s.useData a from_ n
  | none => s

/-- Run a slot's effect behind its checks at issue; it then uses the ports its plan names. -/
def State.guarded (s : State) (a : Issue) (i : Issuer) (p : Plan) (go : State → State) : State :=
  match s.planFails a i p with
  | some d => s.issueBounds a i p.kind d.1 d.2
  | none => go (s.takePorts a p)

/-- Run a slot where it can issue; elsewhere nothing happens (notes/assumptions/8.md). -/
def State.slot_ (s : State) (a : Issue) (go : Issuer → State) : State :=
  match s.issuer a with
  | none => s
  | some i => go i

/-- Apply a change to the issuing cluster. -/
def State.modCluster (s : State) (die phys : Nat) (f : Cluster → Cluster) : State :=
  s.setCluster die phys (f (s.cluster die phys))

/-- Apply a change to the issuing context. -/
def State.modCtx (s : State) (a : Issue) (f : Ctx → Ctx) : State :=
  s.modCluster a.die a.phys fun c => c.setCtx a.ctx (f (c.ctx a.ctx))

/-- Put results on their way: each lands at the end of its plate beat, unless the run halts first (R448). -/
def State.file (s : State) (a : Issue) (xs : List (Nat × Commit)) : State :=
  s.modCtx a fun k => { k with commits := k.commits ++ xs }

/-- One beat of a task: `i` carries the beat on which it reads. -/
abbrev TaskBeat := Issue → Issuer → Task → State → State × Task

/-- Issue a slot that works over several beats: its first beat at once, the others with the beats that follow. -/
def State.start (s : State) (a : Issue) (i : Issuer) (beats : Nat) (work : Work) (step : TaskBeat) : State :=
  let (s, j) := step a i { issued := i.beat, beats := beats, params := (s.ctxAt a).params, work := work, got := [] } s
  if beats ≤ 1 then s else s.modCtx a fun k => { k with jobs := k.jobs ++ [j] }

/-- The context with the parameter registers as a task read them. -/
def Task.ctx (j : Task) (k : Ctx) : Ctx := { k with params := j.params }

/-- The `n` codes of w bits that a number packs, lowest first (R90). -/
def codesOf (w : Nat) : Nat → Nat → List Nat
  | 0, _ => []
  | n + 1, v => v % 2 ^ w :: codesOf w n (v / 2 ^ w)

/-- Element codes of w bits of a packed run of bytes (R90). -/
def unpackBits (w : Nat) (bytes : List Byte) : List Nat := codesOf w (8 * bytes.length / w) (leNat bytes)

/-- The 32-bit words of a run of bytes. -/
def wordsOfBytes (bytes : List Byte) : List Word := (unpackBits 32 bytes).map (BitVec.ofNat 32)

/-- The bytes of a list of words. -/
def bytesOfWords (ws : List Word) : List Byte := ws.foldr (fun w bs => wordBytes w ++ bs) []

/-- Pack codes of w bits into bytes (R90). -/
def packBits (w : Nat) (codes : List Nat) : List Byte :=
  let v := (codes.foldr (fun c (acc : Nat) => c + 2 ^ w * acc) 0)
  leBytes (codes.length * w / 8) v

/-- The seed of the plate bound on a cluster for a tenant (R109). -/
def State.seedOf (s : State) (tenant : Nat) : DWord :=
  match (s.tenant tenant).binding with
  | some b => b.seed
  | none => 0

/-- Catalogue of the tenant's bound plate (R81). -/
def State.catOf (s : State) (tenant : Nat) : Nat :=
  match (s.tenant tenant).binding with
  | some b => b.cat
  | none => 1

/-- The generator of R97: the 24-bit value of an element index. -/
def stochValue (seed : DWord) (e : Word) : Nat :=
  let x := seed ^^^ (e.setWidth 64 * 0x9E3779B97F4A7C15)
  let x := (x ^^^ (x >>> 30)) * 0xBF58476D1CE4E5B9
  let x := (x ^^^ (x >>> 27)) * 0x94D049BB133111EB
  let x := x ^^^ (x >>> 31)
  (x >>> 40).toNat

end Sys2Proof.Machine
end

