-- ==== Sys2Proof/Machine/Store.lean ====
section
/-!
DEFINITION. The store slot (R170, R171) and the parameter, loop, end and idle forms of a line (R152,
R153, R156 to R158, R164).
-/

namespace Sys2Proof.Machine

/-- Read the data SRAM through the context's window. -/
def Cluster.readData (c : Cluster) (k : Ctx) (off n : Nat) : List Byte :=
  Tab.getRun 0 c.dsram (k.dbase * 1024 + off) n

def Cluster.writeData (c : Cluster) (k : Ctx) (off : Nat) (bs : List Byte) : Cluster :=
  { c with dsram := Tab.setRun 0 c.dsram (k.dbase * 1024 + off) bs }

/-- A store slot's ranges, ports and beats (R170, R171, R179), by OP. -/
def storePlan (k : Ctx) (op : Nat) (f : StoreSlot) : Plan :=
  let src := k.offset f.ps
  let dst := k.offset f.pd
  let n := f.nm1 + 1
  match op with
  | 1 => { (((Plan.of 6 [⟨f.ps, src, 512 * n, 32⟩, ⟨f.pd, dst, 512 * n, 32⟩]).reads src n).writes dst 7 n 1)
           with ends := n + 6 }
  | 2 => { (Plan.of 6 [⟨f.pd, dst, 512 * n, 32⟩]).writes dst 0 n 1 with ends := n - 1 }
  | 3 => { (Plan.of 6 [⟨f.pd, dst, 64 * n, 32⟩]).writes dst 2 n 1 with
           ends := n + 1, data := some (f.ps, (k.param f.ps).toNat, 64 * n), dport := some (0, n) }
  | _ => { (Plan.of 6 [⟨f.ps, src, 64 * n, 32⟩]).reads src n with
           ends := n + 6, data := some (f.pd, (k.param f.pd).toNat, 64 * n), dport := some (7, n) }

/-- Block b of a store slot: read on its beat and written as R171 gives, by OP (COPY, FILL, D2S, S2D). -/
def storeBeat (op : Nat) (f : StoreSlot) : TaskBeat := fun a i j s =>
  let b := i.beat - j.issued
  let k := j.ctx (s.ctxAt a)
  let src := k.offset f.ps
  let dst := k.offset f.pd
  match op with
  | 1 =>
    let s := s.scan a i [(src + 512 * b, 512)]
    (s.file a [(i.beat + 7, .spad (dst + 512 * b) ((s.cluster a.die a.phys).read (src + 512 * b) 512))], j)
  | 2 => (s.file a [(i.beat, .spad (dst + 512 * b) (bytesOfWords (List.replicate 128 (k.param f.ps))))], j)
  | 3 =>
    let bytes := (s.cluster a.die a.phys).readData k ((k.param f.ps).toNat + 64 * b) 64
    (s.file a [(i.beat + 2, .spad (dst + 64 * b) bytes)], j)
  | _ =>
    let s := s.scan a i [(src + 64 * b, 64)]
    let bytes := (s.cluster a.die a.phys).read (src + 64 * b) 64
    (s.file a [(i.beat + 7, .data ((k.param f.pd).toNat + 64 * b) bytes true)], j)

/-- A store slot's issue. -/
def State.storeSlot (s : State) (a : Issue) (op : Nat) (f : StoreSlot) : State :=
  s.slot_ a fun i => s.guarded a i (storePlan (s.ctxAt a) op f) fun s =>
    s.start a i (f.nm1 + 1) (.store op f) (storeBeat op f)

/-- COPY (R170, R171). -/
def execCopy (a : Issue) (f : StoreSlot) (s : State) : Host.Outcome State Fault Refusal :=
  done s (s.storeSlot a 1 f)

/-- FILL with a 32-bit pattern (R170). -/
def execFill (a : Issue) (f : StoreSlot) (s : State) : Host.Outcome State Fault Refusal :=
  done s (s.storeSlot a 2 f)

/-- D2S: data SRAM to scratchpad (R170, R171). -/
def execD2s (a : Issue) (f : StoreSlot) (s : State) : Host.Outcome State Fault Refusal :=
  done s (s.storeSlot a 3 f)

/-- S2D: scratchpad to data SRAM (R170, R171). -/
def execS2d (a : Issue) (f : StoreSlot) (s : State) : Host.Outcome State Fault Refusal :=
  done s (s.storeSlot a 4 f)

/-! Parameter updates (R163, R164). -/

/-- Queue parameter writes of a kind 11 slot: in effect at the end of the issue beat. -/
def Ctx.update (k : Ctx) (beat pd : Nat) (vs : List Word) : Ctx :=
  { k with pwrites := k.pwrites ++ (vs.zip (List.range vs.length)).map fun p =>
      { due := beat, reg := pd + p.2, value := p.1, mask := 0xFFFFFFFF, update := true } }

/-- SET: each register of the run becomes IMM (R164). -/
def execParamSet (a : Issue) (f : ParamSlot) (s : State) : Host.Outcome State Fault Refusal :=
  done s (s.slot_ a fun i => s.modCtx a fun k =>
    k.update i.beat f.pd (List.replicate (f.nm1 + 1) (BitVec.ofNat 32 f.imm)))

/-- ADDI: each register of the run grows by IMM modulo 2^32 (R164). -/
def execParamAddi (a : Issue) (f : ParamSlot) (s : State) : Host.Outcome State Fault Refusal :=
  done s (s.slot_ a fun i => s.modCtx a fun k =>
    k.update i.beat f.pd
      ((List.range (f.nm1 + 1)).map fun j => k.param (f.pd + j) + BitVec.ofNat 32 f.imm))

/-- MOVA: PD = PA + IMM (R164). -/
def execMova (a : Issue) (f : ParamSlot) (s : State) : Host.Outcome State Fault Refusal :=
  done s (s.slot_ a fun i => s.modCtx a fun k =>
    k.update i.beat f.pd [k.param f.pa + BitVec.ofNat 32 f.imm])

/-! Control and idle lines (R152, R153, R156 to R158). -/

def Ctx.isArmed (k : Ctx) (c : Nat) : Bool := Tab.get false k.armed c

/-- LOOP (R157): arm the counter when it is not armed, then jump or leave. The line takes one beat; a
control line is three words long. -/
def Ctx.loop (k : Ctx) (w : LoopWord) (beat : Nat) : Ctx :=
  let n := if k.isArmed w.lc then Tab.get 0 k.lc w.lc else w.cm1
  if 0 < n then
    { k with lc := Tab.set 0 k.lc w.lc (n - 1), armed := Tab.set false k.armed w.lc true,
             word := w.target, lineAt := beat + 1 }
  else
    { k with lc := Tab.set 0 k.lc w.lc n, armed := Tab.set false k.armed w.lc false,
             word := k.word + 3, lineAt := beat + 1, ended := k.ended || w.exitend = 1 }

/-- LOOP takes effect with the end of its beat (R157, R448). -/
def execLoop (a : Issue) (w : LoopWord) (s : State) : Host.Outcome State Fault Refusal :=
  done s (s.slot_ a fun i => s.file a [(i.beat, .loop w)])

/-- END ends the context's line program on this beat (R158). -/
def execEndProgram (a : Issue) (s : State) : Host.Outcome State Fault Refusal :=
  done s (s.slot_ a fun i => s.file a [(i.beat, .finish)])

/-- An idle line issues nothing for REP + 1 beats (R152). -/
def execIdleLine (a : Issue) (rep : Nat) (s : State) : Host.Outcome State Fault Refusal :=
  done s (s.slot_ a fun i => s.file a [(i.beat, .idle rep)])

/-- The sequencer after a control or idle line that issued on a beat (R152, R157, R158). -/
def Ctx.control (k : Ctx) (beat : Nat) (x : Commit) : Ctx :=
  match x with
  | .loop w => k.loop w beat
  | .finish => { k with ended := true, word := k.word + 3, lineAt := beat + 1 }
  | .idle rep => { k with word := k.word + 1, lineAt := beat + rep + 1 }
  | _ => k

end Sys2Proof.Machine
end

