-- ==== Sys2Proof/Machine/Sync.lean ====
section
/-!
DEFINITION. The transit network inside a package (R218 to R231): flag operations of a plate and of hosts,
waits, barriers. A flag operation waits in its target cluster until the end of the beat on which it is
applied.
-/

namespace Sys2Proof.Machine

/-- The context of a tenant on a cluster. -/
def Cluster.ctxOf (c : Cluster) (tenant : Nat) : Option Nat :=
  (c.ctxs.find? fun e => e.2.valid && e.2.tenant = tenant).map (·.1)

/-- Physical flag of a tenant-relative flag on a cluster; none outside the partition (R218). -/
def Cluster.flagIn (c : Cluster) (tenant flag : Nat) : Option Nat :=
  match c.ctxOf tenant with
  | none => none
  | some k => if flag < (c.ctx k).fcount then some ((c.ctx k).fbase + flag) else none

/-- The place of plate-logical cluster i of a binding on this package. -/
def Binding.place (b : Binding) (i : Nat) : Option (Nat × Nat) :=
  (b.sites.find? fun x => x.cl = i).map fun x => (x.die, x.phys)

/-- Put a flag operation on its way to a cluster; outside the tenant's partition it is not performed, and
is counted under cause 0x16 (R222). -/
def State.flagTo (s : State) (die phys tenant flag due : Nat) (op : FlagOp) (loc : Bool) : State :=
  let c := s.cluster die phys
  match c.flagIn tenant flag with
  | none => s.record die 1 0x16 (some tenant) phys (s.beatNow tenant) (BitVec.ofNat 64 flag) false
  | some p =>
    s.setCluster die phys
      { c with flagMsgs := c.flagMsgs ++ [{ tenant := tenant, host := false, op := op, flag := p, due := due, loc := loc }] }

def FlagOp.code : FlagOp → Nat
  | .set => 1 | .clr => 2 | .cnt => 5

def FlagOp.ofCode (n : Nat) : Option FlagOp :=
  match n with
  | 1 => some .set | 2 => some .clr | 5 => some .cnt | _ => none

/-- A plate's flag operation (R173, R219, R221): applied at the end of beat i + 1 on its own cluster, i +
24 on its die, i + 36 on the other die; to another package of the board it goes as a FLAGOP entry
stamped with beat i + 52 to the sync link fixed at BIND, which it reaches on beat i + 12 (R252). -/
def State.plateFlag (s : State) (a : Issue) (i : Issuer) (f : SyncSlot) (op : FlagOp) : State :=
  if f.remote = 0 then s.flagTo a.die a.phys i.tenant f.flag (i.beat + 1) op true
  else
    match (s.tenant i.tenant).binding with
    | none => s
    | some b =>
      let target := 16 * (b.own / 16) + f.tpkg
      if b.scope = 0 || target = b.own then
        match b.place (24 * f.tdie + f.tcl) with
        | none => s
        | some (d, p) => s.flagTo d p i.tenant f.flag (i.beat + if d = a.die then 24 else 36) op false
      else
        match b.packages[target]? with
        | none => s
        | some (slot, _) =>
          match b.syncLinks.find? fun x => x.1 = slot && x.2.1 = a.die with
          | none => s
          | some (_, _, k) =>
            let e := SyncEntry.flagop i.tenant s.slot ((i.beat + 52) % 65536) op.code f.flag f.tcl f.tdie
            { s with links := Tab.modify Link.init s.links k fun l =>
                { l with txTransit := l.txTransit ++ [(i.beat + 12, e)] } }

def execFlagSet (a : Issue) (f : SyncSlot) (s : State) : Host.Outcome State Fault Refusal :=
  done s (s.slot_ a fun i => s.plateFlag a i f .set)

def execFlagClr (a : Issue) (f : SyncSlot) (s : State) : Host.Outcome State Fault Refusal :=
  done s (s.slot_ a fun i => s.plateFlag a i f .clr)

def execFlagCnt (a : Issue) (f : SyncSlot) (s : State) : Host.Outcome State Fault Refusal :=
  done s (s.slot_ a fun i => s.plateFlag a i f .cnt)

/-! Lines in the line store (R151). -/

/-- The header of the line at a word of the context's line window; nothing is fetched outside it (R150), so that no line
follows there. -/
def Cluster.lineHeader (c : Cluster) (k : Ctx) (word : Nat) : Nat :=
  if 4 * word + 4 ≤ 1024 * k.lsize then leNat (Tab.getRun 0 c.lines (k.lbase * 1024 + 4 * word) 4) else 0

/-- Words of the line with a header: one, and two for each 64-bit word after it; a control line holds one
control word (R151, R152). -/
def lineWords (header : Nat) : Nat :=
  let len := header / 4096 % 16
  if header % 4096 = 0 && len = 15 then 3 else 1 + 2 * len

/-- Move past the line at `word`: the next line issues on beat `at_`. -/
def Ctx.nextLine (k : Ctx) (c : Cluster) (at_ : Nat) : Ctx :=
  { k with word := k.word + lineWords (c.lineHeader k k.word), lineAt := at_ }

/-! Waits (R223 to R226). -/

/-- A wait issues (R223 to R225): a closed wait whose condition held at the end of the previous beat does
not hold the line; an open wait always holds it until i + T, and needs its T in the wait table. -/
def State.plateWait (s : State) (a : Issue) (i : Issuer) (f : SyncSlot) (clear : Bool) : State :=
  let c := s.cluster a.die a.phys
  let k := c.ctx a.ctx
  let t := bitsOf (k.param f.pt) 0 24
  match c.flagIn i.tenant f.flag with
  | none => s.record a.die 1 0x16 (some i.tenant) a.phys i.beat (BitVec.ofNat 64 f.flag) false
  | some p =>
    let fl := c.flag p
    let w : Wait := { flag := f.flag, clear := clear, opened := fl.opened, issued := i.beat, timeout := t,
                      latch := false }
    if fl.opened then
      if k.waitTable.contains (k.word, t) then
        s.modCtx a fun k => { k with wait := some { w with latch := w.holds fl } }
      else s.issueBounds a i 8 f.pt 0
    else if w.holds fl then s
    else s.modCtx a fun k => { k with wait := some w }

def execWaits (a : Issue) (f : SyncSlot) (s : State) : Host.Outcome State Fault Refusal :=
  done s (s.slot_ a fun i => s.plateWait a i f false)

def execWaitc (a : Issue) (f : SyncSlot) (s : State) : Host.Outcome State Fault Refusal :=
  done s (s.slot_ a fun i => s.plateWait a i f true)

/-- The tenant and plate beat in progress of a context whose line a wait holds; none where no wait is in
force on a running beat. -/
def State.waiting (s : State) (a : Issue) : Option (Issuer × Wait) :=
  let k := s.ctxAt a
  let g := regionKey a.die a.phys
  match k.wait, (s.tenant k.tenant).run with
  | some w, some r =>
    let b := Tab.get 0 r.beats g
    if k.valid && (s.tenant k.tenant).st = .running && r.phase = .inExposure && 0 < b && !r.done.contains g
    then some ({ tenant := k.tenant, beat := b - 1 }, w) else none
  | _, _ => none

/-- End a wait on the beat in progress: it becomes the line's issue beat, on which the line's other slots issue
(R173). -/
def State.endWait (s : State) (a : Issue) (i : Issuer) : State :=
  s.modCtx a fun k => { k with lineAt := i.beat, wait := none }

/-- WAIT_COMPLETE (R223): the condition held at the end of the previous beat, before the timeout. -/
def execWaitComplete (a : Issue) (s : State) : Host.Outcome State Fault Refusal :=
  done s (match s.waiting a with
    | some (i, w) => if !w.opened && w.latch && i.beat < w.issued + w.timeout then s.endWait a i else s
    | none => s)

/-- OPEN_WAIT_COMPLETE (R224): on beat i + T, and only when the condition held in time. -/
def execOpenWaitComplete (a : Issue) (s : State) : Host.Outcome State Fault Refusal :=
  done s (match s.waiting a with
    | some (i, w) => if w.opened && w.latch && i.beat = w.issued + w.timeout then s.endWait a i else s
    | none => s)

/-- Whether a wait expires on a beat (R224, R226). -/
def Wait.expires (w : Wait) (beat : Nat) : Bool :=
  w.issued + w.timeout ≤ beat && !(w.opened && w.latch)

/-- DETAIL of cause 0x14 (R407). -/
def timeoutDetail (flag ctx timeout : Nat) : DWord := BitVec.ofNat 64 (flag + ctx * 256 + timeout * 4096)

/-- WAIT_TIMEOUT (R226, R228): counted in SNET_C_TOUT, the plate halts with FAULT on that beat and no later line of it issues.
A plate whose host comes late ends so and never runs on part of its input; nothing orders the host's SNET_FOP and its data,
which come by rows of their own. -/
def execWaitTimeout (a : Issue) (s : State) : Host.Outcome State Fault Refusal :=
  done s (match s.waiting a with
    | some (i, w) =>
      if w.expires i.beat then
        let s := s.noteCount (clSite a.die a.phys) (ctxOff 0x7014 a.ctx) ((s.cluster a.die a.phys).ctx a.ctx).tout 1
        let s := s.modCtx a fun k => { k with tout := satAdd k.tout 1 }
        let s := s.summarise i.tenant fun m => { m with tout := satAdd m.tout 1 }
        s.faultHalt a.die 1 0x14 i.tenant a.phys i.beat (timeoutDetail w.flag a.ctx w.timeout) .fault
      else s
    | none => s)

/-! Applying flag operations (R220, R221). -/

/-- Apply to a cluster's flags the operations selected, together, in the order of R220. -/
def Cluster.applyFlags (c : Cluster) (sel : FlagMsg → Bool) : Cluster :=
  let now := c.flagMsgs.filter sel
  let touched := (now.map (·.flag)).eraseDups
  let c := touched.foldl (fun c p =>
    c.setFlag p ((c.flag p).apply ((now.filter fun m => m.flag = p).map (·.op)))) c
  { c with flagMsgs := c.flagMsgs.filter fun m => !sel m }

/-- Whether an operation is applied by the end of the beat its tenant has in progress, or last ended, in
a region, and before the beat of a halt (R448). Host operations carry no plate beat: they are applied at the end
of any beat. -/
def State.flagDue (s : State) (region : Nat) (m : FlagMsg) : Bool :=
  match (s.tenant m.tenant).run with
  | some r => m.due = 0 || (m.due ≤ r.beatIn region && match r.halting with
    | some x => decide (m.due < x.h)
    | none => true)
  | none => true

/-- REMOTE_FLAG_APPLY (R220, R221): at the end of the beat on which an operation of another cluster or
package is due, every operation that reaches the cluster's flags on that beat is applied. -/
def execRemoteFlagApply (die phys : Nat) (s : State) : Host.Outcome State Fault Refusal :=
  done s (
    let g := regionKey die phys
    let c := s.cluster die phys
    if c.flagMsgs.any fun m => !m.loc && s.flagDue g m then
      s.setCluster die phys (c.applyFlags (s.flagDue g))
    else s)

/-! Barriers (R229, R230). -/

/-- ARRIVE (R229): the participant arrives; after the last arrival the episode is complete, and `last` is
its beat. -/
def execArrive (a : Issue) (f : SyncSlot) (s : State) : Host.Outcome State Fault Refusal :=
  done s (s.slot_ a fun i =>
    { s with barriers := s.barriers.map fun (x : Barrier) =>
        if x.tenant = i.tenant && x.number = f.flag && x.members.contains (clKey a.die a.phys) then
          if x.arrivedBy.contains (clKey a.die a.phys) then x
          else
            let arr := clKey a.die a.phys :: x.arrivedBy
            { x with arrivedBy := arr, last := if x.last < i.beat then i.beat else x.last,
                     complete := x.members.all arr.contains }
        else x })

/-- SET the release flag in every participant: the operations of one barrier release. -/
def State.releaseFlags (s : State) (x : Barrier) (due : Nat) (loc : Bool) : State :=
  x.members.foldl (fun s k => s.flagTo (k / 24) (k % 24) x.tenant x.flag due .set loc) s

/-- BARRIER_RELEASE (R230): a complete die or package episode sends the SET of its release flag, applied
at the end of beat a + 32 or a + 48 in every participant, and the next episode begins. -/
def execBarrierRelease (tenant barrier : Nat) (s : State) : Host.Outcome State Fault Refusal :=
  done s (
    match s.barriers.find? fun (x : Barrier) => x.tenant = tenant && x.number = barrier && x.complete && x.scope < 2 with
    | none => s
    | some x =>
      let s := { s with barriers := s.barriers.map fun (y : Barrier) =>
        if y.tenant = tenant && y.number = barrier then { y with arrivedBy := [], last := 0, complete := false }
        else y }
      s.releaseFlags x (x.last + barrierDelay x.scope) false)

/-! Host operations on flags (R222, R241). -/

/-- Whether an agent is the host of a tenant, a remote agent of the tenant included (R449). -/
def isHostOf (a : Agent) (tenant : Nat) : Bool :=
  (a.kind = .host || a.kind = .remote) && a.tenant = tenant

/-- AGENT kind in the codes of R214. -/
def agentKindCode : AgentKind → Nat
  | .keeper => 0 | .mgmt => 1 | .host => 2 | .remote => 3

/-- How SNET_FOP is judged (R241). -/
def State.fopJudge (s : State) (a : Agent) (die phys flag owner : Nat) : Status × Option Nat :=
  let c := s.cluster die phys
  let p := c.flagIn owner flag
  let shared := match p with
    | some n => (c.flag n).opened && (c.flag n).sharen && isHostOf a (c.flag n).sharer
    | none => false
  if !(isHostOf a owner) && !shared then (.auth, none)
  else match p with
    | none => (.bounds, none)
    | some n => if (c.flag n).opened then (.ok, some n) else (.auth, none)

/-- Answer an access. -/
def State.answer (s : State) (st : Status) (data : List Word) : State :=
  { s with reply := { status := st, data := data } }

/-- A host flag operation through SNET_FOP (R222, R241): an accepted one is applied at the end of the beat
on which it reaches the node; AUTH is counted under cause 0x16. `cluster` is logical. -/
def State.hostFlag (s : State) (a : Agent) (die cluster flag owner : Nat) (op : FlagOp) : State :=
  if s.power.st = .off then s
  else match s.physOf die cluster with
  | none => s.answer .bounds []
  | some phys =>
    match s.fopJudge a die phys flag owner with
    | (.ok, some p) =>
      let c := s.cluster die phys
      (s.setCluster die phys
        { c with flagMsgs := c.flagMsgs ++ [{ tenant := owner, host := true, op := op, flag := p, due := 0, loc := true }] }).answer
        .ok []
    | (.auth, _) =>
      let own := a.kind = .host || a.kind = .remote
      (s.record die 1 0x16 (if own then some a.tenant else none) phys (if own then s.beatNow a.tenant else 0)
        (BitVec.ofNat 64 (flag + agentKindCode a.kind * 2 ^ 48)) false).answer .auth []
    | (st, _) => s.answer st []

def execSnetFopSet (a : Agent) (die cluster flag owner : Nat) (s : State) : Host.Outcome State Fault Refusal :=
  done s (s.hostFlag a die cluster flag owner .set)

def execSnetFopClr (a : Agent) (die cluster flag owner : Nat) (s : State) : Host.Outcome State Fault Refusal :=
  done s (s.hostFlag a die cluster flag owner .clr)

def execSnetFopCnt (a : Agent) (die cluster flag owner : Nat) (s : State) : Host.Outcome State Fault Refusal :=
  done s (s.hostFlag a die cluster flag owner .cnt)

end Sys2Proof.Machine
end

