-- ==== Sys2Proof/Machine/Bulk.lean ====
section
/-!
DEFINITION. Bulk slots (R172, R200) and the check unit (R289, R290, R297).
-/

namespace Sys2Proof.Machine

/-! CRC-32C (R289): polynomial 0x1EDC6F41, reflected. -/

/-- One bit of the reflected CRC-32C. -/
def crcBit (c : Word) : Word := if c.getLsbD 0 then (c >>> 1) ^^^ 0x82F63B78 else c >>> 1

def crcByte (c : Word) (b : Byte) : Word :=
  crcBit (crcBit (crcBit (crcBit (crcBit (crcBit (crcBit (crcBit (c ^^^ b.setWidth 32))))))))

def crcRun (c : Word) (bs : List Byte) : Word := bs.foldl crcByte c

/-- The 16-byte seed block of R289. -/
def seedBlock (addr : Nat) (tseq : Word) (len : Nat) : List Byte :=
  leBytes 8 (addr % 2 ^ 48) ++ wordBytes tseq ++ leBytes 4 len

/-- The running value after the seed block, the first step of every check value. -/
def crcSeed (addr : Nat) (tseq : Word) (len : Nat) : Word := crcRun 0xFFFFFFFF (seedBlock addr tseq len)

def crcFinal (c : Word) : Word := c ^^^ 0xFFFFFFFF

/-- A check value over a whole transfer (R289). -/
def checkValue (addr : Nat) (tseq : Word) (bs : List Byte) : Word :=
  crcFinal (crcRun (crcSeed addr tseq bs.length) bs)

/-- A shared address of this package's scratchpad (R7). -/
def State.sharedAddr (s : State) (die cluster off : Nat) : Nat :=
  s.slot * 2 ^ 44 + die * 2 ^ 43 + cluster * 2 ^ 38 + off

/-- Deposit a check record at HEAD mod 8 and increment HEAD (R297). -/
def Ctx.deposit (k : Ctx) (r : ChkRec) : Ctx :=
  { k with chk := Tab.set ChkRec.init k.chk (k.chkHead.toNat % 8) r, chkHead := k.chkHead + 1 }

/-- A bulk slot's range and ports (R172, R179), by OP. A RECV uses the write port as its flits arrive. -/
def bulkPlan (k : Ctx) (op : Nat) (f : BulkSlot) : Plan :=
  let base := k.offset f.pa
  let n := f.nm1 + 1
  let p := Plan.of 7 [⟨f.pa, base, 256 * n, 256⟩]
  if op = 1 then { p.reads base n with ends := n - 1 } else p

/-- Flit d of a SEND: read on its beat, at input LOC of the router six beats later; a checked SEND deposits its
record on the beat after its last flit is read (R172, R200, R290). -/
def sendBeat (f : BulkSlot) (crc : Word) : TaskBeat := fun a i j s =>
  let d := i.beat - j.issued
  let k := j.ctx (s.ctxAt a)
  let off := k.offset f.pa + 256 * d
  let s := s.scan a i [(off, 256)]
  let bytes := (s.cluster a.die a.phys).read off 256
  let r := s.router a.die a.phys
  let s := s.setRouter a.die a.phys
    { r with flits := r.flits ++ [{ lane := 0, beat := i.beat + 6, flit := { tenant := i.tenant, data := bytes } }] }
  let crc := if f.chk = 1 then crcRun crc bytes else crc
  let s := if f.chk = 1 && d + 1 = j.beats then
      s.file a [(i.beat + 1, .check { tseq := k.param f.pq, val := crcFinal crc, nfl := j.beats, valid := true,
                                      recv := false })]
    else s
  (s, { j with work := .send f crc })

/-- SEND (R172, R200). -/
def execSend (a : Issue) (f : BulkSlot) (s : State) : Host.Outcome State Fault Refusal :=
  done s (s.slot_ a fun i =>
    let k := s.ctxAt a
    s.guarded a i (bulkPlan k 1 f) fun s =>
      let addr := (k.param f.pda).toNat + 4294967296 * ((k.param (f.pda + 1)).toNat % 65536)
      let crc := crcSeed addr (k.param f.pq) (256 * (f.nm1 + 1))
      s.start a i (f.nm1 + 1) (.send f crc) (sendBeat f crc))

/-- RECV (R172, R200): the context takes the next n flits its partition switches to LOC. A context has at
most one open RECV; one issued while another is open opens nothing (a verified plate issues none,
R200). -/
def execRecv (a : Issue) (f : BulkSlot) (s : State) : Host.Outcome State Fault Refusal :=
  done s (s.slot_ a fun i =>
    let k := s.ctxAt a
    let base := k.offset f.pa
    let n := f.nm1 + 1
    s.guarded a i (bulkPlan k 2 f) fun s =>
      let l := (s.logOf a.die a.phys).getD 0
      let seed := crcSeed (s.sharedAddr a.die l base) (k.param f.pq) (256 * n)
      s.modCtx a fun k =>
        if k.recv.isSome then k
        else { k with recv := some { base := base, n := n, got := 0, chk := f.chk = 1, tseq := k.param f.pq,
                                     issued := i.beat, crc := seed } })

/-- A flit reaches LOC for an open RECV on a beat: written to base + 256 × j at the end of it; after the n-th the
RECV closes, and a checked one deposits its record on the next beat (R200, R290). -/
def State.takeFlit (s : State) (die phys ctx beat : Nat) (data : List Byte) : State :=
  let a : Issue := { die := die, phys := phys, ctx := ctx }
  match (s.ctxAt a).recv with
  | none => s
  | some r =>
    let s := s.usePort die phys ⟨r.base + 256 * r.got, 1, 0, 1, 1⟩
    let crc := if r.chk then crcRun r.crc data else r.crc
    let s := s.file a [(beat, .spad (r.base + 256 * r.got) data)]
    if r.got + 1 < r.n then
      s.modCtx a fun k => { k with recv := some { r with got := r.got + 1, crc := crc } }
    else
      let s := s.modCtx a fun k => { k with recv := none }
      if r.chk then
        s.file a [(beat + 1, .check { tseq := r.tseq, val := crcFinal crc, nfl := r.n, valid := true, recv := true })]
      else s

end Sys2Proof.Machine
end

