-- ==== Sys2Proof/Machine/Frames.lean ====
section
/-!
DEFINITION. The bytes of a link frame: its header (R244, R245), its bulk slots with the sideband of an unscheduled packet
(R203, R246), its sync sub-slot (R238, R247) and the identity record of a TRAIN frame (R261).
-/

namespace Sys2Proof.Machine

/-- A byte string cut or filled with zeros to a length. -/
def padTo (n : Nat) (bs : List Byte) : List Byte := bs.take n ++ List.replicate (n - bs.length) 0

/-- The first `k` pieces of `size` bytes, the last filled with zeros. -/
def pieces (size : Nat) : Nat → List Byte → List (List Byte)
  | 0, _ => []
  | k + 1, bs => padTo size bs :: pieces size k (bs.drop size)

/-! Sync entries (R238, R247). -/

/-- The 128 bits of an entry. -/
def syncBits : SyncEntry → Nat
  | .flagop t slot beat op flag tcl tdie =>
    1 + atBit t 8 4 + atBit slot 4 12 + atBit beat 16 16 + atBit op 4 32 + atBit flag 8 36 + atBit tcl 5 44 + atBit tdie 1 49
  | .stamp t slot exp a => 2 + atBit t 8 4 + atBit slot 4 12 + atBit exp 32 32 + atBit a.toNat 64 64
  | .halt t slot exp status => 3 + atBit t 8 4 + atBit slot 4 12 + atBit exp 32 32 + atBit status 8 64
  | .reserved type => type % 16

/-- The entry in a position of the sub-slot; none where its 128 bits are zero. -/
def syncOfBits (n : Nat) : Option SyncEntry :=
  if n = 0 then none
  else
    let t := bitField n 4 8
    let slot := bitField n 12 4
    match bitField n 0 4 with
    | 1 => some (.flagop t slot (bitField n 16 16) (bitField n 32 4) (bitField n 36 8) (bitField n 44 5) (bitField n 49 1))
    | 2 => some (.stamp t slot (bitField n 32 32) (BitVec.ofNat 64 (bitField n 64 64)))
    | 3 => some (.halt t slot (bitField n 32 32) (bitField n 64 8))
    | k => some (.reserved k)

/-- A FLAGOP entry. -/
def isFlagop (e : SyncEntry) : Bool :=
  match e with
  | .flagop _ _ _ _ _ _ _ => true
  | _ => false

/-- The sub-slot: FLAGOP entries from position 0 up, the others in the last positions, each kind in the order given. -/
def syncSlot (es : List SyncEntry) : List Byte :=
  let enc := fun (xs : List SyncEntry) => xs.flatMap fun e => leBytes 16 (syncBits e)
  let a := enc (es.filter isFlagop)
  let b := enc (es.filter fun e => !isFlagop e)
  a ++ List.replicate (64 - a.length - b.length) 0 ++ b

def readSync (slot : List Byte) : List SyncEntry := ((pieces 16 4 slot).map leNat).filterMap syncOfBits

/-! Unscheduled packets (R203, R246). -/

/-- The 128 bits of a packet's sideband. -/
def sideband (p : Packet) : Nat :=
  atBit p.daddr 48 0 + atBit p.op 4 48 + atBit p.len 9 52 + atBit p.trl.toNat 1 61 + atBit p.ep 1 62 + atBit p.vc 2 63 +
    atBit p.tenant 8 65 + atBit p.srcid 6 73 + atBit p.spkg 4 79 + atBit p.sdie 1 83 + atBit p.tag 16 84 +
    atBit p.status 4 100 + atBit p.chk.toNat 1 104

/-- A packet from its sideband and payload. -/
def packetOfBits (n : Nat) (data : List Byte) : Packet :=
  { daddr := bitField n 0 48, op := bitField n 48 4, len := bitField n 52 9, trl := bitField n 61 1 = 1, ep := bitField n 62 1,
    vc := bitField n 63 2, tenant := bitField n 65 8, srcid := bitField n 73 6, spkg := bitField n 79 4, sdie := bitField n 83 1,
    tag := bitField n 84 16, status := bitField n 100 4, chk := bitField n 104 1 = 1, data := data }

/-- Payload bytes that ride with a packet: none with a READ, whose LEN is what it asks for (R203;
notes/assumptions/117.md). -/
def payloadLen (p : Packet) : Nat := if p.op = 2 then 0 else p.len

/-- Continuation slots after a packet's head (R246). -/
def contSlots (p : Packet) : Nat := (payloadLen p - 48 + 63) / 64

/-- The slots of a packet: the head and its continuations. -/
def headSlot (p : Packet) : List Byte := leBytes 16 (sideband p) ++ padTo 48 p.data
def tailSlots (p : Packet) : List (List Byte) := pieces 64 (contSlots p) (p.data.drop 48)

/-! The identity record (R261). -/

def identBytes (r : IdentRecord) : List Byte :=
  leBytes 8 r.serial.toNat ++ leBytes 1 (atBit r.port 5 0 + atBit r.die 1 5) ++ leBytes 1 (r.slot % 16) ++
    leBytes 1 r.vmin ++ leBytes 1 r.vmax ++ wordBytes r.trid ++ leBytes 8 r.sid.toNat ++ leBytes 8 0

def readIdent (slot : List Byte) : IdentRecord :=
  let at_ := fun (lo n : Nat) => leNat ((slot.drop lo).take n)
  { serial := BitVec.ofNat 64 (at_ 0 8), port := at_ 8 1 % 32, die := at_ 8 1 / 32 % 2, slot := at_ 9 1 % 16, vmin := at_ 10 1,
    vmax := at_ 11 1, trid := BitVec.ofNat 32 (at_ 12 4), sid := BitVec.ofNat 64 (at_ 16 8) }

/-- Two records are the same but for the counter they carry (R260; notes/assumptions/118.md). -/
def sameIdent (r x : IdentRecord) : Bool := { r with sid := 0 } = { x with sid := 0 }

/-! The header (R245). -/

/-- The fields of a header; `kinds` are those of bulk slots 1 to 31. -/
structure FrameHead where
  ftype : Nat
  fseq : Nat
  crsc : Nat
  crn : Nat
  kinds : List Nat
  nakv : Bool
  nakseq : Nat
  beat : Nat
  ten : Nat
  ts : Nat
  pcrc : Word
  deriving DecidableEq, Repr

def FrameHead.bytes (h : FrameHead) : List Byte :=
  let kinds := h.kinds.foldr (fun k n => k % 4 + 4 * n) 0
  leBytes 24 (atBit h.ftype 4 0 + atBit h.fseq 4 4 + atBit h.crsc 4 8 + atBit h.crn 4 12 + atBit kinds 62 16 +
    atBit h.nakv.toNat 1 78 + atBit h.nakseq 4 80 + atBit h.beat 20 84 + atBit h.ten 8 104 + atBit h.ts 48 112 +
    atBit h.pcrc.toNat 32 160)

def readHead (bs : List Byte) : FrameHead :=
  let n := leNat (bs.take 24)
  { ftype := bitField n 0 4, fseq := bitField n 4 4, crsc := bitField n 8 4, crn := bitField n 12 4,
    kinds := (List.range 31).map fun s => bitField n (16 + 2 * s) 2, nakv := bitField n 78 1 = 1, nakseq := bitField n 80 4,
    beat := bitField n 84 20, ten := bitField n 104 8, ts := bitField n 112 48, pcrc := BitVec.ofNat 32 (bitField n 160 32) }

/-- Slot k of a frame (R244). -/
def slotAt (bs : List Byte) (k : Nat) : List Byte := padTo 64 (bs.drop (24 + 64 * k))

/-- A frame of 2,072 bytes from its header, its sync sub-slot and its bulk slots (R244). -/
def frameBytes (h : FrameHead) (sync : List Byte) (slots : List (List Byte)) : List Byte :=
  h.bytes ++ padTo 64 sync ++ (slots.flatMap fun x => padTo 64 x) ++ List.replicate (64 * (31 - slots.length)) 0

/-- PCRC: CRC-32C over all bytes of the previous frame (R245), in the form of R289 (notes/assumptions/117.md). -/
def frameCrc (bs : List Byte) : Word := crcFinal (crcRun 0xFFFFFFFF bs)

/-! The bulk slots of a received frame (R246). -/

/-- What a station reads slot by slot: the bytes of the flit in progress, the packet in progress with the continuation slots it
lacks, whether it discards unscheduled slots (R249), and what is complete. -/
structure Taker where
  part : List Byte
  open_ : Option (Nat × Nat × List Byte)
  skip : Bool
  flits : List (List Byte)
  packets : List Packet
  deriving DecidableEq, Repr

/-- A packet whose last slot has come. -/
def Taker.close (t : Taker) (side left : Nat) (data : List Byte) : Taker :=
  let p := packetOfBits side []
  if left = 0 then { t with open_ := none, packets := t.packets ++ [{ p with data := data.take (payloadLen p) }] }
  else { t with open_ := some (side, left, data) }

/-- Read one bulk slot. A flit fills four consecutive slots, so that what another kind of slot cuts off is no flit. -/
def Taker.slot (resent : Option Nat) (t : Taker) (x : Nat × Nat × List Byte) : Taker :=
  let (n, kind, bs) := x
  if kind = 1 then
    let part := t.part ++ bs
    if part.length = 256 then { t with part := [], flits := t.flits ++ [part] } else { t with part := part }
  else
    let t := { t with part := [], skip := t.skip && resent ≠ some n }
    if t.skip || kind = 0 then t
    else if kind = 2 then
      let side := leNat (bs.take 16)
      ({ t with open_ := none }).close side (contSlots (packetOfBits side [])) (bs.drop 16)
    else
      match t.open_ with
      | some (side, left, data) => t.close side (left - 1) (data ++ bs)
      | none => t

/-- Read the bulk slots of a frame. -/
def Taker.run (t : Taker) (kinds : List Nat) (bs : List Byte) (resent : Option Nat) : Taker :=
  (kinds.zipIdx.map fun k => (k.2 + 1, k.1, slotAt bs (k.2 + 1))).foldl (Taker.slot resent) t

end Sys2Proof.Machine
end

