-- ==== Sys2Proof/Machine/Scalar.lean ====
section
/-!
DEFINITION. The scalar core (R159 to R163): two RV32IMC positions a slot. The instruction set itself is
the RISC-V base and M and C extensions, which the spec names and does not restate
(notes/assumptions/10.md).
-/

namespace Sys2Proof.Machine

inductive AluOp where
  | add | sub | sll | slt | sltu | xor | srl | sra | or | and
  | mul | mulh | mulhsu | mulhu | div | divu | rem | remu
  deriving DecidableEq, Repr

/-- The second operand of an ALU operation. -/
inductive RvSrc where
  | reg (r : Nat)
  | imm (v : Word)
  deriving DecidableEq, Repr

/-- An instruction the scalar core may hold. -/
inductive RvOp where
  | alu (op : AluOp) (rd rs1 : Nat) (b : RvSrc)
  | lui (rd : Nat) (v : Word)
  | load (bytes : Nat) (sign : Bool) (rd rs1 : Nat) (imm : Word)
  | store (bytes : Nat) (rs2 rs1 : Nat) (imm : Word)
  deriving DecidableEq, Repr

/-- An `n`-bit field sign-extended to a word. -/
def sext (n v : Nat) : Word := if v.testBit (n - 1) then BitVec.ofNat 32 (v + 2 ^ 32 - 2 ^ n) else BitVec.ofNat 32 v

/-- The bits [lo + n - 1 : lo] of an instruction. -/
def fld (w lo n : Nat) : Nat := w / 2 ^ lo % 2 ^ n

def aluReg (f3 f7 : Nat) : Option AluOp :=
  match f7, f3 with
  | 0, 0 => some .add | 0, 1 => some .sll | 0, 2 => some .slt | 0, 3 => some .sltu | 0, 4 => some .xor
  | 0, 5 => some .srl | 0, 6 => some .or | 0, 7 => some .and
  | 32, 0 => some .sub | 32, 5 => some .sra
  | 1, 0 => some .mul | 1, 1 => some .mulh | 1, 2 => some .mulhsu | 1, 3 => some .mulhu
  | 1, 4 => some .div | 1, 5 => some .divu | 1, 6 => some .rem | 1, 7 => some .remu
  | _, _ => none

def loadWidth (f3 : Nat) : Option (Nat × Bool) :=
  match f3 with
  | 0 => some (1, true) | 1 => some (2, true) | 2 => some (4, true) | 4 => some (1, false)
  | 5 => some (2, false) | _ => none

/-- A 32-bit instruction of RV32IM that R159 allows. -/
def decodeRv32 (w : Nat) : Option RvOp :=
  let rd := fld w 7 5
  let f3 := fld w 12 3
  let rs1 := fld w 15 5
  let rs2 := fld w 20 5
  let f7 := fld w 25 7
  let imm := sext 12 (fld w 20 12)
  match fld w 0 7 with
  | 0x33 => (aluReg f3 f7).map fun op => .alu op rd rs1 (.reg rs2)
  | 0x13 =>
    match f3 with
    | 0 => some (.alu .add rd rs1 (.imm imm))
    | 2 => some (.alu .slt rd rs1 (.imm imm))
    | 3 => some (.alu .sltu rd rs1 (.imm imm))
    | 4 => some (.alu .xor rd rs1 (.imm imm))
    | 6 => some (.alu .or rd rs1 (.imm imm))
    | 7 => some (.alu .and rd rs1 (.imm imm))
    | 1 => if f7 = 0 then some (.alu .sll rd rs1 (.imm (BitVec.ofNat 32 rs2))) else none
    | _ =>
      if f7 = 0 then some (.alu .srl rd rs1 (.imm (BitVec.ofNat 32 rs2)))
      else if f7 = 32 then some (.alu .sra rd rs1 (.imm (BitVec.ofNat 32 rs2)))
      else none
  | 0x37 => some (.lui rd (BitVec.ofNat 32 (fld w 12 20 * 4096)))
  | 0x03 => (loadWidth f3).map fun p => .load p.1 p.2 rd rs1 imm
  | 0x23 =>
    let off := sext 12 (fld w 25 7 * 32 + fld w 7 5)
    match f3 with
    | 0 => some (.store 1 rs2 rs1 off)
    | 1 => some (.store 2 rs2 rs1 off)
    | 2 => some (.store 4 rs2 rs1 off)
    | _ => none
  | _ => none

/-- A 16-bit instruction of RV32C that R159 allows (no jump, branch or EBREAK). -/
def decodeRvc (w : Nat) : Option RvOp :=
  let r := fld w 7 5
  let r2 := fld w 2 5
  let rp := 8 + fld w 7 3
  let rp2 := 8 + fld w 2 3
  let imm6 := sext 6 (fld w 12 1 * 32 + fld w 2 5)
  let lwOff := BitVec.ofNat 32 (fld w 10 3 * 8 + fld w 6 1 * 4 + fld w 5 1 * 64)
  let shamt := BitVec.ofNat 32 (fld w 2 5)
  match fld w 0 2, fld w 13 3 with
  | 0, 0 =>
    let n := fld w 11 2 * 16 + fld w 7 4 * 64 + fld w 6 1 * 4 + fld w 5 1 * 8
    if n = 0 then none else some (.alu .add rp2 2 (.imm (BitVec.ofNat 32 n)))
  | 0, 2 => some (.load 4 true rp2 rp lwOff)
  | 0, 6 => some (.store 4 rp2 rp lwOff)
  | 1, 0 => some (.alu .add r r (.imm imm6))
  | 1, 2 => some (.alu .add r 0 (.imm imm6))
  | 1, 3 =>
    if imm6 = 0 then none
    else if r = 2 then
      some (.alu .add 2 2 (.imm (sext 10 (fld w 12 1 * 512 + fld w 6 1 * 16 + fld w 5 1 * 64 +
        fld w 3 2 * 128 + fld w 2 1 * 32))))
    else some (.lui r (imm6 <<< 12))
  | 1, 4 =>
    match fld w 10 2 with
    | 0 => if fld w 12 1 = 0 then some (.alu .srl rp rp (.imm shamt)) else none
    | 1 => if fld w 12 1 = 0 then some (.alu .sra rp rp (.imm shamt)) else none
    | 2 => some (.alu .and rp rp (.imm imm6))
    | _ =>
      if fld w 12 1 = 1 then none
      else match fld w 5 2 with
        | 0 => some (.alu .sub rp rp (.reg rp2))
        | 1 => some (.alu .xor rp rp (.reg rp2))
        | 2 => some (.alu .or rp rp (.reg rp2))
        | _ => some (.alu .and rp rp (.reg rp2))
  | 2, 0 => if fld w 12 1 = 0 then some (.alu .sll r r (.imm shamt)) else none
  | 2, 2 =>
    if r = 0 then none
    else some (.load 4 true r 2 (BitVec.ofNat 32 (fld w 12 1 * 32 + fld w 4 3 * 4 + fld w 2 2 * 64)))
  | 2, 4 =>
    if r2 = 0 then none
    else if fld w 12 1 = 0 then some (.alu .add r 0 (.reg r2))
    else some (.alu .add r r (.reg r2))
  | 2, 6 => some (.store 4 r2 2 (BitVec.ofNat 32 (fld w 9 4 * 4 + fld w 7 2 * 64)))
  | _, _ => none

/-- One position of a slot (R159): 32-bit where bits [1:0] are 0b11, else 16-bit with bits [31:16]
zero. -/
def decodePos (w : Word) : Option RvOp :=
  let n := w.toNat
  if n % 4 = 3 then decodeRv32 n else if n < 65536 then decodeRvc n else none

/-- The ALU of RV32IM; division by zero and signed overflow as the base specification defines
(R159). -/
def aluOp (op : AluOp) (x y : Word) : Word :=
  let sh := y.toNat % 32
  match op with
  | .add => x + y
  | .sub => x - y
  | .sll => x <<< sh
  | .slt => if x.toInt < y.toInt then 1 else 0
  | .sltu => if x.toNat < y.toNat then 1 else 0
  | .xor => x ^^^ y
  | .srl => x >>> sh
  | .sra => x.sshiftRight sh
  | .or => x ||| y
  | .and => x &&& y
  | .mul => x * y
  | .mulh => BitVec.ofInt 32 ((x.toInt * y.toInt) / 2 ^ 32)
  | .mulhsu => BitVec.ofInt 32 ((x.toInt * (y.toNat : Int)) / 2 ^ 32)
  | .mulhu => BitVec.ofNat 32 (x.toNat * y.toNat / 2 ^ 32)
  | .div => if y = 0 then 0xFFFFFFFF else BitVec.ofInt 32 (x.toInt.tdiv y.toInt)
  | .divu => if y = 0 then 0xFFFFFFFF else BitVec.ofNat 32 (x.toNat / y.toNat)
  | .rem => if y = 0 then x else BitVec.ofInt 32 (x.toInt.tmod y.toInt)
  | .remu => if y = 0 then x else BitVec.ofNat 32 (x.toNat % y.toNat)

/-- x0 reads as zero. -/
def Cluster.xreg (c : Cluster) (r : Nat) : Word := if r = 0 then 0 else Tab.get 0 c.x r

/-- Where a scalar access lands (R161). -/
inductive ScalarPlace where
  | data (off : Nat)
  | param (off : Nat)
  | beatLo (off : Nat)
  | beatHi (off : Nat)
  | expIdx (off : Nat)
  deriving DecidableEq, Repr

/-- The region of the map that holds a whole access; none outside the map or across a boundary
(R162). -/
def scalarPlace (k : Ctx) (addr n : Nat) : Option ScalarPlace :=
  if addr + n ≤ k.dsize * 1024 then some (.data addr)
  else if 0x10000 ≤ addr && addr + n ≤ 0x10100 then some (.param (addr - 0x10000))
  else if 0x10100 ≤ addr && addr + n ≤ 0x10104 then some (.beatLo (addr - 0x10100))
  else if 0x10104 ≤ addr && addr + n ≤ 0x10108 then some (.beatHi (addr - 0x10104))
  else if 0x10108 ≤ addr && addr + n ≤ 0x1010C then some (.expIdx (addr - 0x10108))
  else none

/-- The bytes of the parameter window. -/
def Ctx.paramBytes (k : Ctx) (off n : Nat) : List Byte :=
  (List.range n).map fun j =>
    BitVec.ofNat 8 ((k.param ((off + j) / 4)).toNat / 2 ^ (8 * ((off + j) % 4)))

/-- A load's value (R161): `beat` and `exp` are the plate beat and the exposure index. -/
def scalarLoad (c : Cluster) (k : Ctx) (beat exp addr n : Nat) (sign : Bool) : Option Word :=
  let bytes := match scalarPlace k addr n with
    | none => none
    | some (.data o) => some (c.readData k o n)
    | some (.param o) => some (k.paramBytes o n)
    | some (.beatLo o) => some ((leBytes 4 beat).drop o)
    | some (.beatHi o) => some ((leBytes 4 (beat / 2 ^ 32)).drop o)
    | some (.expIdx o) => some ((leBytes 4 exp).drop o)
  bytes.map fun bs =>
    let v := leNat (bs.take n)
    if sign then sext (8 * n) v else BitVec.ofNat 32 v

/-- L of R160 for an operation whose access, if any, is to the data window (R160). -/
def aluLatency (cat : Nat) (op : AluOp) : Nat :=
  match op with
  | .mul => if cat = 2 then 2 else 3
  | .mulh => if cat = 2 then 2 else 3
  | .mulhsu => if cat = 2 then 2 else 3
  | .mulhu => if cat = 2 then 2 else 3
  | .div => if cat = 2 then 12 else 18
  | .divu => if cat = 2 then 12 else 18
  | .rem => if cat = 2 then 12 else 18
  | .remu => if cat = 2 then 12 else 18
  | _ => 1

/-- L of a load (R160); a read-only word takes the parameter window's. -/
def loadLatency (cat : Nat) (p : Option ScalarPlace) : Nat :=
  match p with
  | some (.data _) => if cat = 2 then 2 else 3
  | _ => 2

/-- What one position does: a register written with the latency of its result, bytes of the data window, parameter
writes. -/
structure PosEffect where
  reg : Option (Nat × Word × Nat)
  data : Option (Nat × List Byte)
  params : List PWrite
  deriving DecidableEq, Repr

/-- The parameter writes of a store to the parameter window: in effect at the end of beat i + 1
(R163). -/
def paramStore (beat off : Nat) (bs : List Byte) : List PWrite :=
  (List.range bs.length).map fun j =>
    let sh := 8 * ((off + j) % 4)
    { due := beat + 1, reg := (off + j) / 4, value := BitVec.ofNat 32 ((bs.getD j 0).toNat * 2 ^ sh),
      mask := BitVec.ofNat 32 (255 * 2 ^ sh), update := false }

/-- One position's effect, or the address that breaks R162. -/
def posEffect (c : Cluster) (k : Ctx) (cat beat exp : Nat) (op : Option RvOp) : Except Nat PosEffect :=
  let quiet : PosEffect := { reg := none, data := none, params := [] }
  match op with
  | none => .ok quiet
  | some (.alu o rd rs1 b) =>
    let y := match b with
      | .reg r => c.xreg r
      | .imm v => v
    .ok { quiet with reg := some (rd, aluOp o (c.xreg rs1) y, aluLatency cat o) }
  | some (.lui rd v) => .ok { quiet with reg := some (rd, v, 1) }
  | some (.load n sign rd rs1 imm) =>
    let addr := (c.xreg rs1 + imm).toNat
    match scalarLoad c k beat exp addr n sign with
    | some v => .ok { quiet with reg := some (rd, v, loadLatency cat (scalarPlace k addr n)) }
    | none => .error addr
  | some (.store n rs2 rs1 imm) =>
    let addr := (c.xreg rs1 + imm).toNat
    let bs := leBytes n (c.xreg rs2).toNat
    match scalarPlace k addr n with
    | some (.data o) => .ok { quiet with data := some (o, bs) }
    | some (.param o) => .ok { quiet with params := paramStore beat o bs }
    | _ => .error addr

/-- The results of a position that issued on a beat (R160): x0 stays zero. -/
def PosEffect.commits (e : PosEffect) (beat : Nat) : List (Nat × Commit) :=
  (match e.reg with
    | some (r, v, l) => if r = 0 then [] else [(beat + l - 1, Commit.xreg r v)]
    | none => []) ++
  match e.data with
  | some (o, bs) => [(beat, Commit.data o bs false)]
  | none => []

/-- SCALAR_INSTRUCTION (R159, R162): both positions read the x registers as they stood, and neither
commits when either breaks R162. Where both write one place, position 1's value stands (notes/assumptions/38.md). -/
def execScalarInstruction (a : Issue) (pos0 pos1 : Word) (s : State) : Host.Outcome State Fault Refusal :=
  done s (s.slot_ a fun i =>
    let c := s.cluster a.die a.phys
    let k := s.ctxAt a
    let cat := s.catOf i.tenant
    let exp := i.beat / s.explenOf i.tenant
    match posEffect c k cat i.beat exp (decodePos pos0), posEffect c k cat i.beat exp (decodePos pos1) with
    | .error x, _ => s.issueBounds a i 0 0x3F x
    | _, .error x => s.issueBounds a i 0 0x3F x
    | .ok e0, .ok e1 =>
      let s := s.modCtx a fun k => { k with pwrites := k.pwrites ++ e0.params ++ e1.params }
      s.file a (e0.commits i.beat ++ e1.commits i.beat))

end Sys2Proof.Machine
end

