-- ==== Sys2Proof/Machine/Elem.lean ====
section
/-!
DEFINITION. The special functions of the vector core (R118, R119, R120, R129, R133). EXP, GELU and SILU
are enclosed between two dyadics by integer interval arithmetic with `fb` fraction bits and rounded
from both ends; RCP and RSQ are rounded from an exact quotient or root with a sticky bit.
-/

namespace Sys2Proof.Machine

/-- Fraction bits of the fixed-point enclosures: every FP32 number below 2^128 is a multiple of
2^-512. -/
def fb : Nat := 512

/-- An enclosure lo/2^fb ≤ x ≤ hi/2^fb of a non-negative real. -/
structure Encl where
  lo : Nat
  hi : Nat
  deriving DecidableEq, Repr

def ceilDiv (a b : Nat) : Nat := (a + b - 1) / b

def Encl.ofNat (n : Nat) : Encl := { lo := n * 2 ^ fb, hi := n * 2 ^ fb }

def Encl.mul (a b : Encl) : Encl :=
  { lo := a.lo * b.lo / 2 ^ fb, hi := ceilDiv (a.hi * b.hi) (2 ^ fb) }

def Encl.add (a b : Encl) : Encl := { lo := a.lo + b.lo, hi := a.hi + b.hi }

/-- Difference of a larger and a smaller real. -/
def Encl.sub (a b : Encl) : Encl := { lo := a.lo - b.hi, hi := a.hi - b.lo }

def Encl.div (a b : Encl) : Encl :=
  { lo := a.lo * 2 ^ fb / b.hi, hi := ceilDiv (a.hi * 2 ^ fb) b.lo }

def Encl.divNat (a : Encl) (n : Nat) : Encl := { lo := a.lo / n, hi := ceilDiv a.hi n }

/-- Integer square root by bits, from bit i down. -/
def isqrtBits : Nat → Nat → Nat → Nat
  | 0, r, n => if (r + 1) * (r + 1) ≤ n then r + 1 else r
  | i + 1, r, n =>
    let c := r + 2 ^ (i + 1)
    isqrtBits i (if c * c ≤ n then c else r) n

def isqrt (n : Nat) : Nat := isqrtBits (Nat.log2 n / 2 + 1) 0 n

def Encl.sqrt (a : Encl) : Encl :=
  { lo := isqrt (a.lo * 2 ^ fb), hi := isqrt (a.hi * 2 ^ fb) + 1 }

/-- The partial sum of e^y for y below 1, and a bound of what is left out. -/
def expSeries : Nat → Nat → Encl → Encl → Encl → Encl
  | 0, _, _, term, sum => { lo := sum.lo, hi := sum.hi + 2 * term.hi + 2 }
  | k + 1, n, y, term, sum =>
    let t := (Encl.mul term y).divNat n
    expSeries k (n + 1) y t (Encl.add sum t)

def sqTimes : Nat → Encl → Encl
  | 0, a => a
  | k + 1, a => sqTimes k (Encl.mul a a)

/-- e^y for 0 ≤ y < 1,024: the series at y / 1,024, squared ten times. -/
def expEncl (y : Encl) : Encl :=
  let r := y.divNat 1024
  let one := Encl.ofNat 1
  sqTimes 10 (expSeries 80 1 r one one)

/-- An FP32 magnitude below 2^128 as an enclosure: exact. -/
def enclOf (m : Nat) (e : Int) : Encl :=
  let v := m * 2 ^ (e + fb).toNat
  { lo := v, hi := v }

/-- Machin's formula by series: atan(1/k). -/
def atanInv : Nat → Nat → Nat → Encl → Encl → Encl × Encl
  | 0, _, _, _, acc => (acc, acc)
  | n + 1, k, i, p, acc =>
    let t := p.divNat (2 * i + 1)
    let acc' := if i % 2 = 0 then Encl.add acc t else Encl.sub acc t
    let p' := p.divNat (k * k)
    let r := atanInv n k (i + 1) p' acc'
    (acc', r.2)

/-- atan(1/k) between the last two partial sums of its alternating series. -/
def atanEncl (n k : Nat) : Encl :=
  let p := (Encl.ofNat 1).divNat k
  let r := (atanInv n k 0 p { lo := 0, hi := 0 }).2
  { lo := r.lo - 2, hi := r.hi + 2 }

/-- π = 16 atan(1/5) − 4 atan(1/239); the terms left out are below 2^-fb. -/
def piEncl : Encl :=
  let a := atanEncl 124 5
  let b := atanEncl 40 239
  { lo := 16 * a.lo - 4 * b.hi, hi := 16 * a.hi - 4 * b.lo }

/-- Σ y^(2n+1) / (2n+1)!! with all terms positive, and a bound of what is left out. -/
def phiSeries : Nat → Nat → Encl → Encl → Encl → Encl
  | 0, _, _, term, sum => { lo := sum.lo, hi := sum.hi + 2 * term.hi + 2 }
  | k + 1, n, y2, term, sum =>
    let t := (Encl.mul term y2).divNat (2 * n + 1)
    phiSeries k (n + 1) y2 t (Encl.add sum t)

/-- Φ(y) for y ≥ 0 below 16: ½ + φ(y) Σ y^(2n+1)/(2n+1)!!. -/
def cdfUpper (y : Encl) : Encl :=
  let y2 := Encl.mul y y
  let s := phiSeries 900 1 y2 y y
  let density := Encl.div (Encl.ofNat 1)
    (Encl.mul (expEncl (y2.divNat 2)) (Encl.sqrt (Encl.add piEncl piEncl)))
  let half : Encl := { lo := 2 ^ (fb - 1), hi := 2 ^ (fb - 1) }
  Encl.add half (Encl.mul density s)

/-- Round ±(enclosure × m × 2^e) to FP32 when both ends round alike (R129); else the value the model
leaves open. -/
def roundEncl (op : Nat) (x : Word) (neg : Bool) (a : Encl) (m : Nat) (e : Int) : Word :=
  let lo := (roundCode fmtFP32 none (a.lo * m) (e - fb)).1
  let hi := (roundCode fmtFP32 none (a.hi * m) (e - fb)).1
  if lo = hi then BitVec.ofNat 32 (withSign fmtFP32 neg lo) else Config.roundUndecided op x

/-- EXP (R118, R129). -/
def fexp (x : Word) : Word × Flags4 :=
  match f32 x with
  | .nan => (qnan, 0)
  | .inf true => (0, 0)
  | .inf false => (infWord false, 0)
  | .fin neg m e =>
    if m = 0 then (0x3F800000, 0)
    else if !neg && 0x42B17218 ≤ x.toNat then (infWord false, fOVF)
    else if neg && 0x42D00000 ≤ x.toNat - 0x80000000 then (0, 0)
    else
      let y := expEncl (enclOf m e)
      let v := if neg then Encl.div (Encl.ofNat 1) y else y
      (roundEncl 0x08 x false v 1 0, 0)

/-- RCP (R118, R129): the quotient 2^280 / m with a sticky bit, rounded. -/
def frcp (x : Word) : Word × Flags4 :=
  match f32 x with
  | .nan => (qnan, 0)
  | .inf _ => (0, 0)
  | .fin neg m e =>
    if m = 0 then (infWord false, fOVF)
    else
      let q := 2 ^ 280 / m
      let sticky := if 2 ^ 280 % m = 0 then 0 else 1
      toF32 (.fin neg (2 * q + sticky) (-281 - e))

/-- RSQ (R118, R129): ⌊√(2^(2k) / m)⌋ with a sticky bit, rounded. -/
def frsq (x : Word) : Word × Flags4 :=
  match f32 x with
  | .nan => (qnan, 0)
  | .inf true => (qnan, fINV)
  | .inf false => (0, 0)
  | .fin neg m e =>
    if m = 0 then (infWord false, fOVF)
    else if neg then (qnan, fINV)
    else
      let m' := if e % 2 = 0 then m else 2 * m
      let e' := if e % 2 = 0 then e else e - 1
      let q := isqrt (2 ^ 280 / m')
      let sticky := if q * q * m' = 2 ^ 280 then 0 else 1
      toF32 (.fin false (2 * q + sticky) (-141 - e' / 2))

/-- GELU (R118, R129). At 6 and above x Φ(x) rounds to x; at −15 and below it rounds to zero. -/
def fgelu (x : Word) : Word × Flags4 :=
  match f32 x with
  | .nan => (qnan, 0)
  | .inf true => (0, 0)
  | .inf false => (infWord false, 0)
  | .fin neg m e =>
    if m = 0 then (0, 0)
    else if !neg && 0x40C00000 ≤ x.toNat then (x, 0)
    else if neg && 0x41700000 ≤ x.toNat - 0x80000000 then (0, 0)
    else
      let up := cdfUpper (enclOf m e)
      let v := if neg then Encl.sub (Encl.ofNat 1) up else up
      (posZero (roundEncl 0x0B x neg v m e), 0)

/-- SILU (R118, R129). At 32 and above x / (1 + e^−x) rounds to x; at −112 and below to zero. -/
def fsilu (x : Word) : Word × Flags4 :=
  match f32 x with
  | .nan => (qnan, 0)
  | .inf true => (0, 0)
  | .inf false => (infWord false, 0)
  | .fin neg m e =>
    if m = 0 then (0, 0)
    else if !neg && 0x42000000 ≤ x.toNat then (x, 0)
    else if neg && 0x42E00000 ≤ x.toNat - 0x80000000 then (0, 0)
    else
      let y := expEncl (enclOf m e)
      let one := Encl.ofNat 1
      let d := Encl.add one y
      let v := if neg then Encl.div one d else
        Encl.sub one (Encl.div one d)
      (posZero (roundEncl 0x0C x neg v m e), 0)

/-- Σ (−1)^n y^(2n+k) / (2n+k)! as a positive and a negative part. -/
def trigSeries : Nat → Nat → Encl → Encl → Encl → Encl → Encl × Encl
  | 0, _, _, term, pos, neg =>
    ({ lo := pos.lo, hi := pos.hi + term.hi + 1 }, { lo := neg.lo, hi := neg.hi + term.hi + 1 })
  | k + 1, n, y2, term, pos, neg =>
    let t := (Encl.mul term y2).divNat ((n + 1) * (n + 2))
    trigSeries k (n + 2) y2 t (Encl.add neg t) pos

/-- cos or sin of an angle below π/2, as lo and hi. -/
def trigEncl (sine : Bool) (y : Encl) : Encl :=
  let start := if sine then y else Encl.ofNat 1
  let n := if sine then 1 else 0
  let r := trigSeries 80 n (Encl.mul y y) start start { lo := 0, hi := 0 }
  { lo := r.1.lo - r.2.hi, hi := r.1.hi - r.2.lo }

/-- A signed enclosure. -/
structure SEncl where
  neg : Bool
  mag : Encl
  deriving DecidableEq, Repr

/-- cos θ or sin θ for θ = 2π φ / 2^32: the quarter turn and the angle within it (R133). -/
def turnTrig (sine : Bool) (phase : Nat) : SEncl :=
  let quarter := phase / 2 ^ 30 % 4
  let part := phase % 2 ^ 30
  let angle : Encl := { lo := piEncl.lo * part / 2 ^ 31, hi := ceilDiv (piEncl.hi * part) (2 ^ 31) }
  let useSine := if quarter % 2 = 0 then sine else !sine
  let neg := if sine then 2 ≤ quarter else quarter = 1 || quarter = 2
  { neg := neg, mag := trigEncl useSine angle }

/-- The rotated component a·u − b·v or a·u + b·v, as signed bounds in units of 2^(low − fb). -/
def rotBounds (u v : SEncl) (mu mv : Int) : Int × Int :=
  let part := fun (c : SEncl) (m : Int) =>
    let lo : Int := c.mag.lo
    let hi : Int := c.mag.hi
    let flip := (c.neg != decide (m < 0))
    let k : Int := m.natAbs
    if flip then (-(hi * k), -(lo * k)) else (lo * k, hi * k)
  let p := part u mu
  let q := part v mv
  (p.1 + q.1, p.2 + q.2)

/-- Whether a component is no larger than (1 + 2^-22) × √(x² + y²) (R133); `r` is ⌊√(x²+y²)⌋ in units of 2^(low − fb). -/
def ropeSmall (w : Word) (r : Nat) (low : Int) : Bool :=
  match f32 w with
  | .fin _ m e => low - fb ≤ e && m * 2 ^ (e - (low - fb)).toNat ≤ r + r / 2 ^ 22
  | _ => false

/-- The FP32 value nearest the middle of signed bounds whose magnitude keeps both limits of R133: below the nearest one
where that is too large, which only a subnormal component can be. -/
def roundMid (b : Int × Int) (r : Nat) (low : Int) : Word :=
  let mid := b.1 + b.2
  let c := (roundCode fmtFP32 none mid.natAbs (low - fb - 1)).1
  let c := if fmtFP32.maxCode < c then fmtFP32.maxCode else c
  let w := fun (n : Nat) => BitVec.ofNat 32 (withSign fmtFP32 (decide (mid < 0)) n)
  if ropeSmall (w c) r low then w c else w (c - 1)

/-- Whether a candidate component keeps the bounds of R129 and R133: within 2^-22 × √(x² + y²) of the
exact component, and no larger than (1 + 2^-22) × √(x² + y²). `r` is ⌊√(x²+y²)⌋ in units of
2^(low − fb). -/
def ropeWithin (cand : Word) (b : Int × Int) (r : Nat) (low : Int) : Bool :=
  match f32 cand with
  | .fin neg m e =>
    let sh := (e - (low - fb)).toNat
    if e < low - fb then false
    else
      let c := signed neg (m * 2 ^ sh)
      let tol : Int := r / 2 ^ 22
      b.2 - tol ≤ c && c ≤ b.1 + tol && ropeSmall cand r low
  | _ => false

/-- ROPE of one pair (R120, R133): x′ and y′ with the flags. The component the unit returns is free
within the bound of R129: Config's value where it keeps the bound, the nearest FP32 value where it
does not. `pos0` says that the position is 0; a NaN in one component makes both outputs NaN there as anywhere, for the
second case of R120 stands at any position (notes/assumptions/102.md). -/
def ropePair (pos0 : Bool) (phase : Nat) (x y : Word) : (Word × Word) × Flags4 :=
  match f32 x, f32 y with
  | .fin xn xm xe, .fin yn ym ye =>
    if phase = 0 then ((posZero x, posZero y), 0)
    else
      let low := if xe ≤ ye then xe else ye
      let ix := signed xn (xm * 2 ^ (xe - low).toNat)
      let iy := signed yn (ym * 2 ^ (ye - low).toNat)
      let c := turnTrig false phase
      let s := turnTrig true phase
      let bx := rotBounds c s ix (-iy)
      let by_ := rotBounds s c ix iy
      let r := isqrt ((ix.natAbs * ix.natAbs + iy.natAbs * iy.natAbs) * 2 ^ (2 * fb))
      let pick := fun (isY : Bool) (b : Int × Int) =>
        let cand := Config.ropeRaw isY x y (BitVec.ofNat 32 phase)
        posZero (if ropeWithin cand b r low then cand else roundMid b r low)
      ((pick false bx, pick true by_), 0)
  | a, b =>
    if a = .nan || b = .nan then ((qnan, qnan), 0)
    else if pos0 then ((posZero x, posZero y), 0)
    else ((qnan, qnan), fINV)

end Sys2Proof.Machine
end

