-- ==== Sys2Proof/Machine/Matrix.lean ====
section
/-!
DEFINITION. The matrix core (R64 to R85) and its converter (R92 to R108): stationary loads, streams,
converter setups and channel-table loads. A load or a stream reads the beats R73 and R72 give; a column's results
land on the beats of R81 and R103.
-/

namespace Sys2Proof.Machine

/-! Loading a tile. -/

/-- Bytes of one half of a tile (R73). -/
def halfSpan (f : LoadSlot) (transp : Bool) : Nat :=
  let w := elemBits f.sfmt
  if transp then 2048 * w else 31 * f.pitch * 16 + 64 * w

/-- The bytes of one half that data beat d reads, from its base (R73). -/
def halfBeat (f : LoadSlot) (transp : Bool) (d : Nat) : Nat × Nat :=
  let w := elemBits f.sfmt
  if transp then
    let n := (if w = 4 then 32 else if w = 16 then 8 else 16) * 4 * w
    (d * n, n)
  else if w = 16 then (d / 2 * f.pitch * 16 + d % 2 * 512, 512)
  else (d * f.pitch * 16, 64 * w)

/-- Where element j of half h read on data beat d stands in a bank: key 1,024 × token + channel (R73). -/
def tileKey (f : LoadSlot) (transp : Bool) (h d j : Nat) : Nat :=
  let w := elemBits f.sfmt
  if transp then
    let rows := if w = 4 then 32 else if w = 16 then 8 else 16
    1024 * (j % 32) + 512 * h + d * rows + j / 32
  else if w = 16 then 1024 * (d / 2) + 512 * h + 256 * (d % 2) + j
  else 1024 * d + 512 * h + j

/-- The elements of a half read on one data beat, by key. -/
def tilePart (f : LoadSlot) (transp : Bool) (h d : Nat) (bytes : List Byte) : List (Nat × Nat) :=
  let codes := unpackBits (elemBits f.sfmt) bytes
  (codes.zip (List.range codes.length)).map fun p => (tileKey f transp h d p.2, p.1)

/-- The block scales of a half read on beat d, keyed 32 × token + group: 16 bytes a token, 32 bytes a beat (R73). -/
def scalePart (h d : Nat) (bytes : List Byte) : List (Nat × Nat) :=
  (bytes.zip (List.range bytes.length)).map fun p => (32 * (2 * d + p.2 / 16) + 16 * h + p.2 % 16, p.1.toNat)

/-- Data beats of a load (R73). -/
def loadBeats (fmt : Nat) (transp : Bool) : Nat :=
  let w := elemBits fmt
  if w = 16 then 64 else if transp && w = 4 then 16 else 32

/-- Where a slot that names two halves and a scale displacement finds its runs: the halves, then their scales. -/
def halfRuns (k : Ctx) (fmt pa pb ps : Nat) : Nat × Nat × Int × Int :=
  let disp := if isMx fmt then k.displacement ps else 0
  (k.offset pa, k.offset pb, k.offset pa + disp, k.offset pb + disp)

/-- The two halves in different slices, each scale run in the slice of its half (R83, R84). -/
def halfConds (pb ps : Nat) (mx : Bool) (offA offB : Nat) (scA scB : Int) : List Cond :=
  [⟨sliceOf offA ≠ sliceOf offB, 0x0601, pb, offB⟩] ++
    if mx then [⟨sliceOf scA.toNat = sliceOf offA, 0x0601, ps, scA⟩, ⟨sliceOf scB.toNat = sliceOf offB, 0x0601, ps, scB⟩]
    else []

/-- A load's ranges, ports and beats (R73, R75, R83, R84): the two halves lie in different slices, each with its
scales. -/
def loadPlan (k : Ctx) (transp : Bool) (f : LoadSlot) : Plan :=
  let (offA, offB, scA, scB) := halfRuns k f.sfmt f.pa f.pb f.ps
  let mx := isMx f.sfmt
  let len := halfSpan f transp
  let d := loadBeats f.sfmt transp
  let p := Plan.of 5 ([⟨f.pa, offA, len, 16⟩, ⟨f.pb, offB, len, 16⟩] ++
    if mx then [⟨f.ps, scA, 512, 0⟩, ⟨f.ps, scB, 512, 0⟩] else [])
  let p := (p.reads offA d).reads offB d
  { p with
    conds := halfConds f.pb f.ps mx offA offB scA scB
    uses := p.uses ++ if mx then [⟨scA.toNat, 2, 0, 16, 1⟩, ⟨scB.toNat, 2, 0, 16, 1⟩] else []
    ends := d - 1 }

/-- Beats from the array read to the beat on which the data is usable by the unit (R182). -/
def usableAfter : Nat := 6

/-- One data beat of a load: the bank is written as its data arrives, when it is usable (R73, R75, R182). -/
def loadBeat (f : LoadSlot) (transp : Bool) : TaskBeat := fun a i j s =>
  let d := i.beat - j.issued
  let k := j.ctx (s.ctxAt a)
  let (offA, offB, scA, scB) := halfRuns k f.sfmt f.pa f.pb f.ps
  let (at_, n) := halfBeat f transp d
  let scales := isMx f.sfmt && decide (d < 16)
  let s := s.scan a i ([(offA + at_, n), (offB + at_, n)] ++
    if scales then [(scA.toNat + 32 * d, 32), (scB.toNat + 32 * d, 32)] else [])
  let c := s.cluster a.die a.phys
  let elems := tilePart f transp 0 d (c.read (offA + at_) n) ++ tilePart f transp 1 d (c.read (offB + at_) n)
  let marks := if scales then
      scalePart 0 d (c.read (scA.toNat + 32 * d) 32) ++ scalePart 1 d (c.read (scB.toNat + 32 * d) 32)
    else []
  (s.file a [(i.beat + usableAfter, .tile f.arr f.tb f.sfmt transp (decide (d = 0)) (decide (d + 1 = j.beats)) elems marks)], j)

/-- A stationary load (R73, R74, R84). -/
def State.loadTile (s : State) (a : Issue) (f : LoadSlot) (transp : Bool) : State :=
  s.slot_ a fun i => s.guarded a i (loadPlan (s.ctxAt a) transp f) fun s =>
    s.start a i (loadBeats f.sfmt transp) (.load f transp) (loadBeat f transp)

def execStationaryLoadNormal (a : Issue) (f : LoadSlot) (s : State) : Host.Outcome State Fault Refusal :=
  done s (s.loadTile a f false)

def execStationaryLoadTransposed (a : Issue) (f : LoadSlot) (s : State) : Host.Outcome State Fault Refusal :=
  done s (s.loadTile a f true)

/-! The dot product (R92, R93, R111, R112). -/

/-- One of the 32 products as R111 decides it, with its flags; `fs` is the exponent of the shared
factor, none for a NaN block scale. The exact product is kept unscaled. -/
def dpuProduct (fs : Option Int) (x y : Num) : Num × Flags4 :=
  match fs with
  | none => (.nan, 0)
  | some e =>
    match mulNum x y with
    | (.fin neg m d, _) =>
      if fmtFP32.maxCode < (roundCode fmtFP32 none m (d + e)).1 then (.inf neg, fOVF) else (.fin neg m d, 0)
    | r => r

/-- Floor of log2 of a finite nonzero magnitude. -/
def leadBit (m : Nat) (e : Int) : Int := (Nat.log2 m : Int) + e

/-- The anchor of R92's window: the leading bit of the largest finite product; none without a nonzero
finite product. -/
def anchor (ps : List Num) : Option Int :=
  ps.foldl (fun acc p =>
    match p with
    | .fin _ m e =>
      if m = 0 then acc
      else match acc with
        | none => some (leadBit m e)
        | some a => some (if a < leadBit m e then leadBit m e else a)
    | _ => acc) none

/-- A product truncated toward zero at the window's lowest position, in units of that position. -/
def windowTerm (low : Int) (p : Num) : Int :=
  match p with
  | .fin neg m e =>
    if low ≤ e then signed neg (m * 2 ^ (e - low).toNat)
    else signed neg (m / 2 ^ (low - e).toNat)
  | _ => 0

/-- The partial of a DPU from its 32 products (R92, R112). -/
def dpuPartial (fs : Option Int) (ps : List Num) : Word × Flags4 :=
  if ps.any fun p => p = .nan then (qnan, 0)
  else
    let pos := ps.any fun p => p = .inf false
    let neg := ps.any fun p => p = .inf true
    if pos && neg then (qnan, fINV)
    else if pos then (infWord false, 0)
    else if neg then (infWord true, 0)
    else
      match anchor ps, fs with
      | some a, some e =>
        let low := a - 111
        toF32 (ofScaled ((ps.map (windowTerm low)).foldl (· + ·) 0) (low + e))
      | _, _ => (0, 0)

/-- One DPU on one beat: the partial and every flag of R111 and R112. -/
def dpu (fs : Option Int) (xs ys : List Num) : Word × Flags4 :=
  let ps := (xs.zip ys).map fun p => dpuProduct fs p.1 p.2
  let r := dpuPartial fs (ps.map (·.1))
  (r.1, ps.foldl (fun f p => f ||| p.2) r.2)

/-- The exponent of the shared factor 2^(Ss + Sw − 254); none when a scale is 0xFF (R91). -/
def sharedFactor (ss sw : Nat) : Option Int :=
  if ss = 0xFF || sw = 0xFF then none else some ((ss : Int) + sw - 254)

/-! Streams. -/

/-- Rate of a stream (R71): 2 for 2×, 1 for 1×, 0 for ½. -/
def rateOf (sfmt wfmt : Nat) : Nat :=
  if widthClass sfmt = 0 && widthClass wfmt = 0 then 2
  else if widthClass sfmt = 2 || widthClass wfmt = 2 then 0
  else 1

/-- Feeder beats of a stream of n columns (R71). -/
def feederBeats (rate n : Nat) : Nat := if rate = 2 then (n + 1) / 2 else if rate = 1 then n else 2 * n

/-- Bytes read from each slice on each feeder beat (R71). -/
def streamBytes (rate w : Nat) : Nat := if rate = 2 then 512 else if rate = 1 then 64 * w else 32 * w

/-- What a feeder beat reads: a run of each half, and on a scale beat a run of scale bytes of each (R72). -/
def feederReads (mx : Bool) (rate w k offA offB scA scB : Nat) : List (Nat × Nat) :=
  let b := streamBytes rate w
  let n := if rate = 2 then 32 else 16
  let m := if rate = 0 then k / 2 else k
  [(offA + k * b, b), (offB + k * b, b)] ++
    if mx && (rate ≠ 0 || k % 2 = 0) then [(scA + m * n, n), (scB + m * n, n)] else []

/-- The codes of one half of a column in 16 groups of 32, from what its feeder beats read: at 1× and 2× in order, at ½
elements 0 to 15 of every group and then elements 16 to 31 (R72). -/
def groupsOf (rate : Nat) (codes : List Nat) : List (List Nat) :=
  (List.range 16).map fun g =>
    if rate = 0 then (codes.drop (16 * g)).take 16 ++ (codes.drop (256 + 16 * g)).take 16
    else (codes.drop (32 * g)).take 32

/-- A bank's token m in 32 groups of 32 (R66). -/
def Bank.groups (b : Bank) (m : Nat) : List (List Num) :=
  let row := (Tab.getRun 0 b.elems (1024 * m) 1024).map (decodeElem b.fmt)
  (List.range 32).map fun g => (row.drop (32 * g)).take 32

def Bank.statScale (b : Bank) (m g : Nat) : Nat :=
  if isMx b.fmt then Tab.get 0 b.scales (32 * m + g) else 0x7F

/-- Lane m of a column: 32 partials added down the lane from +0, with the flags of each row (R65, R94, R103). -/
def laneSum (b : Bank) (ws : List (List Num)) (scales : List Nat) (m : Nat) : Word × List Flags4 :=
  ((b.groups m).zip ((ws.zip scales).zip (List.range 32))).foldl (fun acc x =>
    let p := dpu (sharedFactor (b.statScale m x.2.2) x.2.1.2) x.1 x.2.1.1
    let q := fadd acc.1 p.1
    (q.1, acc.2 ++ [p.2 ||| q.2])) ((0 : Word), [])

/-- The setup in force before any SET: dead by contract (R108). -/
def CnvSetup.init : CnvSetup :=
  { ofmt := 0, rnd := false, ovm := false, chm := false, clip := false, scale := 0, bias := 0, lo := 0,
    hi := 0, ix := 0, ds := 0 }

/-- Clip (R96): max(min(t, hi), lo); a NaN bound leaves its side unbounded. -/
def clipTo (lo hi t : Word) : Word :=
  if isNanW t then t
  else
    let lo := if isZeroW lo then 0 else lo
    let hi := if isZeroW hi then 0 else hi
    let u := if isNanW hi then t else if numLe (f32 t) (f32 hi) then t else hi
    if isNanW lo then u else if numLe (f32 lo) (f32 u) then u else lo

/-- Step 1 and 2 of R95 for lane value x of column n. -/
def CnvSetup.value (u : CnvSetup) (table : Tab (BitVec 64)) (n : Nat) (x : Word) : Word × Flags4 :=
  let e := Tab.get 0 table ((u.scale.toNat + n) % 2048)
  let sc := if u.chm then e.setWidth 32 else u.scale
  let bi := if u.chm then (e >>> 32).setWidth 32 else u.bias
  let t := ffma x sc bi
  (if u.clip then clipTo u.lo u.hi t.1 else t.1, t.2)

/-- The generator value of lane m of column n (R97); none under round to nearest even. -/
def CnvSetup.random (u : CnvSetup) (seed : DWord) (n m : Nat) : Option Nat :=
  if u.rnd then some (stochValue seed (u.ix + BitVec.ofNat 32 (32 * n + m))) else none

/-- emax of an MX element format (R101). -/
def mxEmax (fmt : Nat) : Nat :=
  match fmt with
  | 2 => 8 | 3 => 15 | 4 => 4 | _ => 2

/-- FP32 magnitude of a lane for the block maximum, an infinity counting as the largest finite. -/
def blockMag (t : Word) : Nat :=
  let m := t.toNat % 2147483648
  if m = 0x7F800000 then 0x7F7FFFFF else m

/-- What a column writes: the element codes, the scale byte of an MX block, flags, and the counts of
R450. -/
structure ColOut where
  codes : List Nat
  scale : Option Nat
  flags : Flags4
  nans : Nat
  sats : Nat
  deriving DecidableEq, Repr

/-- One MX element (R101, R102, R117): v / 2^X to the element format, saturating; a finite value above
the maximum raises INX only. -/
def mxElem (fmt : Nat) (x : Int) (r : Option Nat) (t : Word) : Conv :=
  match floatFmt fmt, f32 t with
  | some f, .fin neg m e =>
    let c := convFloat f false r (.fin neg m (e - x)) (nanConv 0)
    if c.isSat then { c with flags := fINX } else c
  | some f, v => convFloat f false r v (nanConv 0)
  | none, _ => nanConv 0

/-- Convert the 32 lane values of a column (R95 step 3, R99, R101). -/
def convColumn (u : CnvSetup) (seed : DWord) (n : Nat) (ts : List Word) : ColOut :=
  let lanes := ts.zip (List.range 32)
  if isMx u.ofmt then
    if ts.any isNanW then { codes := ts.map fun _ => 0, scale := some 0xFF, flags := 0, nans := 32, sats := 0 }
    else
      let a := ts.foldl (fun m t => if m < blockMag t then blockMag t else m) 0
      if a = 0 then { codes := ts.map fun _ => 0, scale := some 0x7F, flags := 0, nans := 0, sats := 0 }
      else
        let lg : Int := match f32 (BitVec.ofNat 32 a) with
          | .fin _ m e => leadBit m e
          | _ => 127
        let x0 : Int := lg - mxEmax u.ofmt
        let x := if x0 < -127 then -127 else if 127 < x0 then 127 else x0
        let cs := lanes.map fun p => mxElem u.ofmt x (u.random seed n p.2) p.1
        { codes := cs.map (·.code), scale := some (x + 127).toNat,
          flags := cs.foldl (fun f c => f ||| c.flags) 0, nans := 0,
          sats := cs.countP (·.isSat) }
  else
    let cs := lanes.map fun p => convert u.ofmt u.ovm (u.random seed n p.2) (f32 p.1)
    { codes := cs.map (·.code), scale := none, flags := cs.foldl (fun f c => f ||| c.flags) 0,
      nans := cs.countP (·.isNan), sats := cs.countP (·.isSat) }

/-- Bytes of one output column (R79). -/
def columnBytes (fmt : Nat) : Nat := 4 * elemBits fmt

/-- The beats of R81 by catalogue: feeder, DPU stages after firing, converter. -/
def feederStage (cat : Nat) : Nat := if cat = 2 then 1 else 2
def dpuStages (cat : Nat) : Nat := if cat = 2 then 1 else 2
def convStages (cat : Nat) : Nat := if cat = 2 then 2 else 3

/-- The beat on which row g's partial of a column joins the lane's chain, from the feeder beat (R81, R103). -/
def chainBeat (cat g : Nat) : Nat := 6 + feederStage cat + g + dpuStages cat + 1

/-- A column whose last feeder beat is `beat`, met with the bank its stream names: each row's flags rise with its chain
addition, and the sums reach the accumulator stage one beat after the last (R81, R103). -/
def Feed.commits (w : Feed) (b : Bank) (seed : DWord) (cat beat : Nat) : List (Nat × Commit) :=
  let f := w.slot
  let u := w.setup
  let lanes := (List.range 32).map (laneSum b (w.groups.map fun g => g.map (decodeElem f.wfmt)) w.scales)
  let rows := (List.range 32).map fun g => (g, lanes.foldl (fun x l => x ||| l.2.getD g 0) (0 : Flags4))
  (rows.filter fun r => r.2 ≠ 0).map (fun r => (beat + chainBeat cat r.1, Commit.mflags f.arr r.2)) ++
    [(beat + chainBeat cat 31 + 1, .column
      { arr := f.arr, acc := f.acc, entry := f.accbase + w.n, n := w.n,
        sums := lanes.map fun (l : Word × List Flags4) => l.1, setup := u, po := w.po + w.n * columnBytes u.ofmt,
        so := (w.so + w.n).toNat, seed := seed, conv := convStages cat })]

/-- The accumulator stage (R78): the array after it, the values that go on, and the flags of the additions. -/
def Column.accumulate (w : Column) (x : Arr) : Arr × List Word × Flags4 :=
  let vals := if w.acc < 2 then w.sums.map fun v => (v, (0 : Flags4))
    else ((Tab.getRun 0 x.acc (32 * w.entry) 32).zip w.sums).map fun p => fadd p.1 p.2
  let ws := vals.map (·.1)
  ({ x with cols := x.cols + 1, acc := if w.acc = 0 then x.acc else Tab.setRun 0 x.acc (32 * w.entry) ws }, ws,
    vals.foldl (fun f v => f ||| v.2) 0)

/-- The converter's write of a column's values (R79, R95). -/
def Column.convert (w : Column) (table : Tab (BitVec 64)) (ws : List Word) : Commit :=
  let ts := ws.map (w.setup.value table w.n)
  let o := convColumn w.setup w.seed w.n (ts.map (·.1))
  .output w.arr w.po (packBits (elemBits w.setup.ofmt) o.codes) (o.scale.map fun b => (w.so, BitVec.ofNat 8 b))
    (ts.foldl (fun f t => f ||| t.2) o.flags) o.nans o.sats

/-- L of R81: feeder entry to output written. -/
def streamLatency (cat : Nat) : Nat := if cat = 2 then 37 else 40

/-- Whether a stream converts and writes its columns (R78). -/
def streamOuts (f : StreamSlot) : Bool := f.acc = 0 || f.acc = 3

/-- A stream's ranges, ports and beats (R71, R72, R79, R81 to R84, R101, R107): `fmt` is the stationary format, `u`
the setup it latches. -/
def streamPlan (k : Ctx) (f : StreamSlot) (fmt : Nat) (u : CnvSetup) (cat : Nat) : Plan :=
  let n := f.nm1 + 1
  let rate := rateOf fmt f.wfmt
  let q := feederBeats rate n
  let per := streamBytes rate (elemBits f.wfmt)
  let mx := isMx f.wfmt
  let (offA, offB, scA, scB) := halfRuns k f.wfmt f.pa f.pb f.ps
  let po := k.offset f.po
  let omx := streamOuts f && isMx u.ofmt
  let so : Int := po + u.ds.toInt
  let scaleLen := if rate = 2 then 32 * q else 16 * n
  let late := 6 + streamLatency cat
  let p := Plan.of (f.arr + 1) ([⟨f.pa, offA, q * per, 16⟩, ⟨f.pb, offB, q * per, 16⟩] ++
    (if mx then [⟨f.ps, scA, scaleLen, 0⟩, ⟨f.ps, scB, scaleLen, 0⟩] else []) ++
    (if streamOuts f then [⟨f.po, po, n * columnBytes u.ofmt, 0⟩] else []) ++
    (if omx then [⟨f.po, so, n, 0⟩] else []))
  let p := (p.reads offA q).reads offB q
  let step := if rate = 0 then 2 else 1
  let lane := fun (o : Nat) => (⟨o, 2, 0, if rate = 0 then n else q, step⟩ : Use)
  let p := { p with
    conds := halfConds f.pb f.ps mx offA offB scA scB ++
      (if omx then [⟨sliceOf so.toNat = sliceOf po, 0x0601, f.po, so⟩] else []) ++
      (if streamOuts f && u.chm then [⟨u.scale.toNat + n ≤ 2048, 0x0405, f.po, po⟩] else [])
    uses := p.uses ++ if mx then [lane scA.toNat, lane scB.toNat] else []
    ends := if streamOuts f then late + q - 1 else q - 1 }
  if streamOuts f then p.writes po (if rate = 0 then late + 1 else late) (if rate = 0 then n else q) step else p

/-- One feeder beat of a stream (R71, R72): the columns whose last feeder beat it is are on their way, and meet their bank
when the data is usable (R182). At ½ rate the even beat is kept for the odd one. -/
def streamBeat (f : StreamSlot) (u : CnvSetup) : TaskBeat := fun a i j s =>
  let d := i.beat - j.issued
  let k := j.ctx (s.ctxAt a)
  let bank := ((s.cluster a.die a.phys).arr f.arr).bank f.tb
  let rate := rateOf bank.fmt f.wfmt
  let w := elemBits f.wfmt
  let (offA, offB, scA, scB) := halfRuns k f.wfmt f.pa f.pb f.ps
  let ranges := feederReads (isMx f.wfmt) rate w d offA offB scA.toNat scB.toNat
  let s := s.scan a i ranges
  let c := s.cluster a.die a.phys
  let runs := ranges.map fun x => c.read x.1 x.2
  if rate = 0 && d % 2 = 0 then (s, { j with got := runs.flatten })
  else
    let b := streamBytes rate w
    let old := if rate = 0 then j.got else []
    let halfA := old.take b ++ runs.getD 0 []
    let halfB := (old.drop b).take b ++ runs.getD 1 []
    let scs := if rate = 0 then [(old.drop (2 * b)).take 16, old.drop (2 * b + 16)] else runs.drop 2
    let per := if rate = 2 then 64 * w else halfA.length
    let at_ := if rate = 2 then 2 * d else if rate = 0 then d / 2 else d
    let column := fun (x : Nat) =>
      let half := fun (bytes : List Byte) => groupsOf rate (unpackBits w ((bytes.drop (x * per)).take per))
      let scales := if isMx f.wfmt then ((scs.map fun bs => (bs.drop (16 * x)).take 16).flatten).map fun b => b.toNat
        else List.replicate 32 0x7F
      let po := k.offset f.po
      (i.beat + usableAfter, Commit.feed
        { slot := f, setup := u, n := at_ + x, groups := half halfA ++ half halfB, scales := scales, po := po,
          so := (po : Int) + u.ds.toInt })
    let xs := if rate = 2 && at_ + 1 ≤ f.nm1 then [0, 1] else [0]
    (s.file a (xs.map column), j)

/-- Region beats from the issue of a stream of q feeder beats to the one on which none of its columns is in the pipeline any
more: a column leaves it at the accumulator stage where the stream writes no output (R78, R81, R86). -/
def drainSpan (f : StreamSlot) (cat q : Nat) : Nat :=
  q + if streamOuts f then usableAfter + streamLatency cat else chainBeat cat 31 + 1

/-- STREAM (R77 to R84, R95, R107): it latches the setup in force (R80). -/
def execStream (a : Issue) (f : StreamSlot) (s : State) : Host.Outcome State Fault Refusal :=
  done s (s.slot_ a fun i =>
    let arr := (s.cluster a.die a.phys).arr f.arr
    let fmt := (arr.bank f.tb).fmt
    let q := feederBeats (rateOf fmt f.wfmt) (f.nm1 + 1)
    let u := arr.setup.getD CnvSetup.init
    let cat := s.catOf i.tenant
    s.guarded a i (streamPlan (s.ctxAt a) f fmt u cat) fun s =>
      let now := (s.region (regionKey a.die a.phys)).beat
      let s := s.modCluster a.die a.phys fun c =>
        let x := c.arr f.arr
        c.setArr f.arr { x with feedUntil := now + q, drainUntil := max x.drainUntil (now + drainSpan f cat q) }
      s.start a i q (.stream f u) (streamBeat f u))

/-! The converter setup slot (R104, R105). -/

def bool01 (n : Nat) : Bool := n ≠ 0

/-- CNV_CFG as a SET leaves it (R109). -/
def cnvCfgOf (f : SetSlot) : Word :=
  BitVec.ofNat 32 (f.ofmt + f.rnd * 16 + f.ovm * 32 + f.chm * 64 + f.clipen * 128 + 256)

/-- The setup a SET makes of the registers' values (R104). -/
def setupOf (k : Ctx) (f : SetSlot) : CnvSetup :=
  { ofmt := f.ofmt, rnd := bool01 f.rnd, ovm := bool01 f.ovm, chm := bool01 f.chm, clip := bool01 f.clipen,
    scale := k.param f.psc, bias := k.param f.pbi, lo := k.param f.plo, hi := k.param f.phi, ix := k.param f.pix,
    ds := if isMx f.ofmt then k.param f.pso else 0 }

/-- SET: the setup later streams of the array latch, with the registers' values now (R80, R104). -/
def execCnvSet (a : Issue) (f : SetSlot) (s : State) : Host.Outcome State Fault Refusal :=
  done s (s.slot_ a fun i =>
    let u := setupOf (s.ctxAt a) f
    let s := s.modCluster a.die a.phys fun c => c.setArr f.arr { c.arr f.arr with setup := some u }
    s.file a [(i.beat, .setupState f.arr (cnvCfgOf f))])

/-- Read beats B of a TLOAD of K entries (R105). -/
def tloadBeats (k : Nat) : Nat := (k + 63) / 64

def tloadPlan (k : Ctx) (f : TloadSlot) : Plan :=
  let off := k.offset f.pa
  let n := f.km1 + 1
  { (Plan.of 9 [⟨f.pa, off, 8 * n, 16⟩]).reads off (tloadBeats n) with ends := tloadBeats n - 1 }

/-- One read beat of a TLOAD: 64 entries, the last beat what is left (R105), written when they are usable (R182). CNV_TAB
shows the TLOAD once it has completed (notes/assumptions/30.md). -/
def tloadBeat (f : TloadSlot) : TaskBeat := fun a i j s =>
  let d := i.beat - j.issued
  let off := (j.ctx (s.ctxAt a)).offset f.pa + 512 * d
  let n := if f.km1 + 1 - 64 * d < 64 then f.km1 + 1 - 64 * d else 64
  let s := s.scan a i [(off, 8 * n)]
  let bytes := (s.cluster a.die a.phys).read off (8 * n)
  let entries := (unpackBits 64 bytes).map (BitVec.ofNat 64)
  let last := if d + 1 = j.beats then
      [(i.beat + usableAfter, Commit.tableState f.arr (BitVec.ofNat 32 (1 + f.tbase * 2 + f.km1 * 4096)))]
    else []
  (s.file a ((i.beat + usableAfter, .table f.arr (f.tbase + 64 * d) entries) :: last), j)

/-- TLOAD: K entries of 8 bytes into the channel table from TBASE (R105). -/
def execTload (a : Issue) (f : TloadSlot) (s : State) : Host.Outcome State Fault Refusal :=
  done s (s.slot_ a fun i => s.guarded a i (tloadPlan (s.ctxAt a) f) fun s =>
    s.start a i (tloadBeats (f.km1 + 1)) (.tload f) (tloadBeat f))

end Sys2Proof.Machine
end

