-- ==== Sys2Proof/Machine/Vector.lean ====
section
/-!
DEFINITION. The vector cores (R122 to R135): elementwise operations, reductions, online softmax, rotary
position, loads and stores.
-/

namespace Sys2Proof.Machine

def VCore.lane (v : VCore) (r j : Nat) : Word := Tab.get 0 v.vr (128 * r + j)

def VCore.reg (v : VCore) (r : Nat) : List Word := Tab.getRun 0 v.vr (128 * r) 128

def VCore.setReg (v : VCore) (r : Nat) (ws : List Word) : VCore :=
  { v with vr := Tab.setRun 0 v.vr (128 * r) ws }

/-- Operand B: a register, or the value of parameter register PP broadcast to all lanes (R124). -/
def operandB (k : Ctx) (v : VCore) (f : VecSlot) : List Word :=
  if f.sb = 1 then List.replicate 128 (k.param f.pp) else v.reg f.vb

/-- L of R126. -/
def vecLatency (cat op : Nat) : Nat :=
  let pick := fun (a b : Nat) => if cat = 2 then b else a
  match op with
  | 0x04 => pick 5 4 | 0x08 => pick 8 6 | 0x09 => pick 8 6 | 0x0A => pick 8 6 | 0x0B => pick 12 9 | 0x0C => pick 12 9
  | 0x0D => pick 10 8 | 0x0E => pick 10 8 | 0x10 => 1 | 0x11 => pick 14 11 | 0x12 => pick 8 6 | 0x18 => pick 9 7
  | 0x20 => pick 8 7 | 0x21 => pick 3 2 | 0x22 => pick 8 7 | _ => pick 4 3

/-- Beats from issue to the write of a softmax row (R131, R132). -/
def rowDelay (cat op : Nat) : Nat := if op = 0x10 then 0 else if cat = 2 then 4 else 5

/-- What a vector operation writes: registers, its softmax row's state, and the flags it raises. -/
structure VecOut where
  regs : List (Nat × List Word)
  row : Option (Word × Word)
  flags : Flags4

/-- When what a vector operation writes lands: registers and flags at the end of the L-th beat, the row state as R132
gives. -/
def VecOut.commits (r : VecOut) (f : VecSlot) (cat op beat : Nat) : List (Nat × Commit) :=
  let due := beat + vecLatency cat op - 1
  (r.regs.map fun x => (due, Commit.vreg f.core x.1 x.2)) ++
    (match r.row with
      | some x => [(beat + rowDelay cat op, Commit.row f.core f.row x.1 x.2)]
      | none => []) ++
    if r.flags = 0 then [] else [(due, Commit.vflags f.core r.flags)]

/-- A vector slot (R126, R131, R135): the operation reads on its issue beat. -/
def State.vecSlot (s : State) (a : Issue) (f : VecSlot) (op : Nat) (run : Ctx → VCore → VecOut) : State :=
  s.slot_ a fun i => s.file a
    ((run (s.ctxAt a) ((s.cluster a.die a.phys).vcore f.core)).commits f (s.catOf i.tenant) op i.beat)

def zip3 (xs ys zs : List Word) : List (Word × Word × Word) := xs.zip (ys.zip zs)

/-- The two packed BF16 elements of a lane, widened to FP32 (R122). -/
def unpackBf16 (w : Word) : Word × Word := (w <<< 16, w &&& 0xFFFF0000)

/-- An FP32 result converted to BF16 under round to nearest even and IEEE overflow (R135). -/
def toBf16 (w : Word) : Nat × Flags4 :=
  let c := convert 0xA true none (f32 w)
  (c.code, c.flags)

/-- A three-operand operation on one lane in packed BF16 mode (R122, R135). -/
def packedOp (op : Word → Word → Word → Word × Flags4) (x y z : Word) : Word × Flags4 :=
  let p := unpackBf16 x
  let q := unpackBf16 y
  let r := unpackBf16 z
  let lo := op p.1 q.1 r.1
  let hi := op p.2 q.2 r.2
  let l := toBf16 lo.1
  let h := toBf16 hi.1
  (BitVec.ofNat 32 (l.1 + 65536 * h.1), lo.2 ||| hi.2 ||| l.2 ||| h.2)

/-- An elementwise operation over the lanes, with every zero result +0 (R118). -/
def elementwise (f : VecSlot) (op : Word → Word → Word → Word × Flags4) (k : Ctx) (v : VCore) : VecOut :=
  let f1 := fun x y z => let r := op x y z; (posZero r.1, r.2)
  let rs := (zip3 (v.reg f.va) (operandB k v f) (v.reg f.vc)).map fun p =>
    if f.pk = 1 then packedOp f1 p.1 p.2.1 p.2.2 else f1 p.1 p.2.1 p.2.2
  { regs := [(f.vd, rs.map (·.1))], row := none, flags := rs.foldl (fun x r => x ||| r.2) 0 }

def execAdd (a : Issue) (f : VecSlot) (s : State) : Host.Outcome State Fault Refusal :=
  done s (s.vecSlot a f 0x01 (elementwise f fun x y _ => fadd x y))

def execSub (a : Issue) (f : VecSlot) (s : State) : Host.Outcome State Fault Refusal :=
  done s (s.vecSlot a f 0x02 (elementwise f fun x y _ => fsub x y))

def execMul (a : Issue) (f : VecSlot) (s : State) : Host.Outcome State Fault Refusal :=
  done s (s.vecSlot a f 0x03 (elementwise f fun x y _ => fmul x y))

def execFma (a : Issue) (f : VecSlot) (s : State) : Host.Outcome State Fault Refusal :=
  done s (s.vecSlot a f 0x04 (elementwise f ffma))

def execMax (a : Issue) (f : VecSlot) (s : State) : Host.Outcome State Fault Refusal :=
  done s (s.vecSlot a f 0x05 (elementwise f fun x y _ => (fmax x y, 0)))

def execMin (a : Issue) (f : VecSlot) (s : State) : Host.Outcome State Fault Refusal :=
  done s (s.vecSlot a f 0x06 (elementwise f fun x y _ => (fmin x y, 0)))

def execExp (a : Issue) (f : VecSlot) (s : State) : Host.Outcome State Fault Refusal :=
  done s (s.vecSlot a f 0x08 (elementwise f fun x _ _ => fexp x))

def execRcp (a : Issue) (f : VecSlot) (s : State) : Host.Outcome State Fault Refusal :=
  done s (s.vecSlot a f 0x09 (elementwise f fun x _ _ => frcp x))

def execRsq (a : Issue) (f : VecSlot) (s : State) : Host.Outcome State Fault Refusal :=
  done s (s.vecSlot a f 0x0A (elementwise f fun x _ _ => frsq x))

def execGelu (a : Issue) (f : VecSlot) (s : State) : Host.Outcome State Fault Refusal :=
  done s (s.vecSlot a f 0x0B (elementwise f fun x _ _ => fgelu x))

def execSilu (a : Issue) (f : VecSlot) (s : State) : Host.Outcome State Fault Refusal :=
  done s (s.vecSlot a f 0x0C (elementwise f fun x _ _ => fsilu x))

/-! Reductions (R130). -/

/-- Combine neighbours: lane 2i with lane 2i + 1. -/
def pairUp (op : Word → Word → Word × Flags4) : List Word → List Word × Flags4
  | x :: y :: rest =>
    let r := op x y
    let t := pairUp op rest
    (r.1 :: t.1, r.2 ||| t.2)
  | xs => (xs, 0)

/-- The fixed pairwise tree of `n` levels. -/
def treeReduce (op : Word → Word → Word × Flags4) : Nat → List Word → Word × Flags4
  | 0, xs => (xs.headD 0, 0)
  | n + 1, xs =>
    let p := pairUp op xs
    let r := treeReduce op n p.1
    (r.1, p.2 ||| r.2)

def rsumOf (xs : List Word) : Word × Flags4 := treeReduce fadd 7 xs

def rmaxOf (xs : List Word) : Word := (treeReduce (fun x y => (fmax x y, 0)) 7 xs).1

def broadcast (w : Word) : List Word := List.replicate 128 w

def execRsum (a : Issue) (f : VecSlot) (s : State) : Host.Outcome State Fault Refusal :=
  done s (s.vecSlot a f 0x0D fun _ v =>
    let r := rsumOf (v.reg f.va)
    { regs := [(f.vd, broadcast (posZero r.1))], row := none, flags := r.2 })

def execRmax (a : Issue) (f : VecSlot) (s : State) : Host.Outcome State Fault Refusal :=
  done s (s.vecSlot a f 0x0E fun _ v =>
    { regs := [(f.vd, broadcast (rmaxOf (v.reg f.va)))], row := none, flags := 0 })

/-! Online softmax (R131). -/

def VCore.row (v : VCore) (r : Nat) : Word × Word := Tab.get (0, 0) v.rows r

def VCore.setRow (v : VCore) (r : Nat) (p : Word × Word) : VCore :=
  { v with rows := Tab.set (0, 0) v.rows r p }

def minusInf : Word := 0xFF800000

def execSmxi (a : Issue) (f : VecSlot) (s : State) : Host.Outcome State Fault Refusal :=
  done s (s.vecSlot a f 0x10 fun _ _ => { regs := [], row := some (minusInf, 0), flags := 0 })

/-- A softmax exponential EXP(x − m). A finite difference beyond the largest FP32 raises no OVF: the rows of R119 raise
none, and they stay binding (R131; notes/assumptions/126.md). -/
def softmaxExp (x m : Word) : Word × Flags4 :=
  let d := fsub x m
  let e := fexp d.1
  (e.1, (d.2 ||| e.2) &&& fINV)

/-- SMXS: the weights of the chunk, the rescale factor, and the new row state. -/
def softmaxStep (row : Word × Word) (xs : List Word) : List Word × Word × (Word × Word) × Flags4 :=
  let m' := fmax row.1 (rmaxOf xs)
  let ws := if m' = minusInf then xs.map fun _ => ((0 : Word), (0 : Flags4)) else
    xs.map fun x => softmaxExp x m'
  let c := if row.1 = minusInf then ((0 : Word), (0 : Flags4)) else softmaxExp row.1 m'
  let sum := rsumOf (ws.map (·.1))
  let l := ffma row.2 c.1 sum.1
  let fl := ws.foldl (fun x w => x ||| w.2) (c.2 ||| sum.2 ||| l.2)
  (ws.map (·.1), c.1, (m', posZero l.1), fl)

def execSmxs (a : Issue) (f : VecSlot) (s : State) : Host.Outcome State Fault Refusal :=
  done s (s.vecSlot a f 0x11 fun _ v =>
    let r := softmaxStep (v.row f.row) (v.reg f.va)
    { regs := [(f.vd, r.1), (f.vb, broadcast r.2.1)], row := some r.2.2.1, flags := r.2.2.2 })

def execSmxn (a : Issue) (f : VecSlot) (s : State) : Host.Outcome State Fault Refusal :=
  done s (s.vecSlot a f 0x12 fun _ v =>
    let l := (v.row f.row).2
    if l = 0 then { regs := [(f.vd, broadcast 0)], row := none, flags := 0 }
    else
      let q := frcp l
      let rs := (v.reg f.va).map fun x => fmul x q.1
      { regs := [(f.vd, rs.map fun r => posZero r.1)], row := none, flags := rs.foldl (fun x r => x ||| r.2) q.2 })

/-! Rotary position (R133). -/

/-- The lanes of pair i. -/
def ropeLanes (pair i : Nat) : Nat × Nat := if pair = 0 then (2 * i, 2 * i + 1) else (i, i + 64)

/-- Lane j of a rotated register: its pair's results are in pair order. -/
def ropeLane (pair : Nat) (rs : List ((Word × Word) × Flags4)) (j : Nat) : Word :=
  let p := if pair = 0 then (rs.getD (j / 2) ((0, 0), 0)).1 else (rs.getD (j % 64) ((0, 0), 0)).1
  if (if pair = 0 then j % 2 else j / 64) = 0 then p.1 else p.2

def execRope (a : Issue) (f : VecSlot) (s : State) : Host.Outcome State Fault Refusal :=
  done s (s.vecSlot a f 0x18 fun k v =>
    let p := (k.param f.pp).toNat % 2 ^ 24
    let rs := (List.range 64).map fun i =>
      let lanes := ropeLanes f.pair i
      let phase := p * (Tab.get 0 v.rope i).toNat % 2 ^ 32
      ropePair (p = 0) phase (v.lane f.va lanes.1) (v.lane f.va lanes.2)
    { regs := [(f.vd, (List.range 128).map (ropeLane f.pair rs))], row := none,
      flags := rs.foldl (fun x r => x ||| r.2) 0 })

/-! Memory (R125, R128, R134). -/

/-- Widen a stored element exactly to FP32 (R128): NaN to the canonical NaN, −0 kept. -/
def widen (fmt code : Nat) : Word :=
  match decodeElem fmt code with
  | .fin neg m e =>
    if m = 0 then (if neg then 0x80000000 else 0) else (toF32 (.fin neg m e)).1
  | x => (toF32 x).1

/-- Bytes a VLD or VST moves. -/
def vmemBytes (f : VmemSlot) : Nat := if f.pk = 1 then 512 else 16 * elemBits f.fmt

def vmemAddr (k : Ctx) (f : VmemSlot) : Nat := k.offset f.pa + 32 * f.off

/-- The range, ports and beats of VLD, VST and RTLD (R125, R126, R128, R134, R179), by OP. -/
def vmemPlan (k : Ctx) (op : Nat) (f : VmemSlot) (cat : Nat) : Plan :=
  let off := vmemAddr k f
  let n := if op = 0x22 then 256 else vmemBytes f
  if op = 0x21 then
    { (Plan.of (f.core + 3) [⟨f.pa, off, n, if n ≤ 496 then 0 else 16⟩]).writes off ((vecLatency cat 0x21 - 1)) 1 1 with
      ends := vecLatency cat 0x21 - 1 }
  else (Plan.of (f.core + 3) [⟨f.pa, off, n, 16⟩]).reads off 1

/-- A memory slot's issue, once it has passed its checks. -/
def State.vmemSlot (s : State) (a : Issue) (f : VmemSlot) (op : Nat) (go : Issuer → Nat → Nat → State → State) : State :=
  s.slot_ a fun i =>
    let cat := s.catOf i.tenant
    s.guarded a i (vmemPlan (s.ctxAt a) op f cat)
      (go i (vmemAddr (s.ctxAt a) f) (i.beat + vecLatency cat op - 1))

/-- The register VLD fills (R128). -/
def vldWords (f : VmemSlot) (bytes : List Byte) : List Word :=
  if f.pk = 1 then wordsOfBytes bytes else (unpackBits (elemBits f.fmt) bytes).map (widen f.fmt)

def execVld (a : Issue) (f : VmemSlot) (s : State) : Host.Outcome State Fault Refusal :=
  done s (s.vmemSlot a f 0x20 fun i off due s =>
    let s := s.scan a i [(off, vmemBytes f)]
    let bytes := (s.cluster a.die a.phys).read off (vmemBytes f)
    s.file a [(due, .vreg f.core f.vr (vldWords f bytes))])

/-- VST of one lane: R115 for the lane's value, with the generator value of lane j in stochastic mode. -/
def vstLane (f : VmemSlot) (seed : DWord) (ix : Word) (j : Nat) (w : Word) : Conv :=
  let r := if f.rnd = 1 then some (stochValue seed (ix + BitVec.ofNat 32 j)) else none
  convert f.fmt (f.ovm = 1) r (f32 w)

def execVst (a : Issue) (f : VmemSlot) (s : State) : Host.Outcome State Fault Refusal :=
  done s (s.vmemSlot a f 0x21 fun i off due s =>
    let v := (s.cluster a.die a.phys).vcore f.core
    let cs := ((v.reg f.vr).zip (List.range 128)).map fun p =>
      vstLane f (s.seedOf i.tenant) ((s.ctxAt a).param f.pix) p.2 p.1
    let fl : Flags4 := if f.pk = 1 then 0 else cs.foldl (fun x y => x ||| y.flags) 0
    let bytes := if f.pk = 1 then bytesOfWords (v.reg f.vr) else packBits (elemBits f.fmt) (cs.map (·.code))
    s.file a ((due, .spad off bytes) :: if fl = 0 then [] else [(due, .vflags f.core fl)]))

def execRtld (a : Issue) (f : VmemSlot) (s : State) : Host.Outcome State Fault Refusal :=
  done s (s.vmemSlot a f 0x22 fun i off due s =>
    let s := s.scan a i [(off, 256)]
    s.file a [(due, .rope f.core (wordsOfBytes ((s.cluster a.die a.phys).read off 256)))])

end Sys2Proof.Machine
end

