-- ==== Sys2Proof/Machine/Select.lean ====
section
/-!
DEFINITION. The selection unit (R121, R136 to R146): TOPK, IXLD, GATHER, SCATTER.
-/

namespace Sys2Proof.Machine

/-- Whether key x ranks strictly above key y (R121): every NaN lowest, both zeros equal. -/
def ranksAbove (x y : Num) : Bool :=
  match x, y with
  | .nan, _ => false
  | _, .nan => true
  | x, y => !numLe x y

/-- Insert a candidate behind every candidate that it does not rank above: ties stay in index order. -/
def rankInsert (p : Num × Nat) : List (Num × Nat) → List (Num × Nat)
  | [] => [p]
  | q :: rest => if ranksAbove p.1 q.1 then p :: q :: rest else q :: rankInsert p rest

/-- The candidates in rank order, best first, ties toward the lower index. -/
def rankAll (keys : List Num) : List (Num × Nat) :=
  (keys.zip (List.range keys.length)).foldl (fun acc p => rankInsert p acc) []

/-- Occupy a selection unit for a number of beats from now. -/
def VCore.occupy (v : VCore) (now beats : Nat) : VCore := { v with selUntil := now + beats }

/-- Put 64 words into bank b of the index buffer, marking it written (R136, R148). -/
def Cluster.setBank64 (c : Cluster) (b : Nat) (ws : List Word) : Cluster :=
  { c with xb := Tab.setRun 0 c.xb (64 * b) ws, xbv := c.xbv ||| 2 ^ b }

def State.regionBeat (s : State) (a : Issue) : Nat := (s.region (regionKey a.die a.phys)).beat

/-- Read beats R of a TOPK (R139). -/
def topkBeats (f : TopkSlot) : Nat := if f.kfmt = 1 then (f.cm1 + 256) / 256 else (f.cm1 + 128) / 128

/-- TOPK's ranges, ports and beats (R138, R139, R179). -/
def topkPlan (k : Ctx) (f : TopkSlot) (cat : Nat) : Plan :=
  let w := if f.kfmt = 1 then 2 else 4
  let off := k.offset f.pa
  let po := k.offset f.po
  let kk := f.km1 + 1
  let n := f.cm1 + 1
  let late := topkBeats f + if cat = 2 then 15 else 17
  let p := (Plan.of 10 ([⟨f.pa, off, n * w, 16⟩] ++
    if f.outen = 1 then [⟨f.po, po, 4 * kk, if 4 * kk ≤ 496 then 0 else 16⟩] else [])).reads off (topkBeats f)
  { (if f.outen = 1 then p.writes po late 1 1 else p) with ends := late }

/-- The core's selection unit is taken for some beats from now. -/
def State.occupy (s : State) (a : Issue) (core beats : Nat) : State :=
  let now := s.regionBeat a
  s.modCluster a.die a.phys fun c => c.setVcore core ((c.vcore core).occupy now beats)

/-- What a TOPK makes of its keys (R138): the k best indices, and how many of them are of NaN keys. -/
def topkOf (f : TopkSlot) (ib : Word) (bytes : List Byte) : List Word × Nat :=
  let keys := (unpackBits (if f.kfmt = 1 then 16 else 32) bytes).map (decodeElem (if f.kfmt = 1 then 0xA else 0xC))
  let best := (rankAll keys).take (f.km1 + 1)
  (best.map fun p => ib + BitVec.ofNat 32 p.2, best.countP fun p => p.1 = .nan)

/-- One key beat of a TOPK; after the last, the bank, the list and the count are on their way (R139). -/
def topkBeat (f : TopkSlot) : TaskBeat := fun a i j s =>
  let d := i.beat - j.issued
  let k := j.ctx (s.ctxAt a)
  let len := (f.cm1 + 1) * if f.kfmt = 1 then 2 else 4
  let off := k.offset f.pa + 512 * d
  let n := if len - 512 * d < 512 then len - 512 * d else 512
  let s := s.scan a i [(off, n)]
  let got := j.got ++ (s.cluster a.die a.phys).read off n
  if d + 1 = j.beats then
    let r := topkOf f (k.param f.pib) got
    let due := j.issued + (topkPlan k f (s.catOf i.tenant)).ends
    let list := if f.outen = 1 then [(due, Commit.spad (k.offset f.po) (bytesOfWords r.1))] else []
    let count := if r.2 = 0 then [] else [(due, Commit.events f.vc { SelEvents.none_ with nanfill := r.2 })]
    (s.file a ((due, .index f.xb (r.1 ++ List.replicate (64 - r.1.length) 0xFFFFFFFF)) :: list ++ count), j)
  else (s, { j with got := got })

/-- TOPK (R138). -/
def execTopk (a : Issue) (f : TopkSlot) (s : State) : Host.Outcome State Fault Refusal :=
  done s (s.slot_ a fun i => s.guarded a i (topkPlan (s.ctxAt a) f (s.catOf i.tenant)) fun s =>
    (s.occupy a f.vc (topkBeats f)).start a i (topkBeats f) (.topk f) (topkBeat f))

/-- IXLD's range, port and beats (R140, R179). -/
def ixldPlan (k : Ctx) (f : IxldSlot) (cat : Nat) : Plan :=
  let off := k.offset f.pa
  { (Plan.of 10 [⟨f.pa, off, 256, 16⟩]).reads off 1 with ends := if cat = 2 then 6 else 7 }

/-- IXLD (R140). -/
def execIxld (a : Issue) (f : IxldSlot) (s : State) : Host.Outcome State Fault Refusal :=
  done s (s.slot_ a fun i =>
    let off := (s.ctxAt a).offset f.pa
    let plan := ixldPlan (s.ctxAt a) f (s.catOf i.tenant)
    s.guarded a i plan fun s =>
      let s := (s.occupy a f.vc 1).scan a i [(off, 256)]
      s.file a [(i.beat + plan.ends, .index f.xb (wordsOfBytes ((s.cluster a.die a.phys).read off 256)))])

/-- The parts of a range that lie in one slice each. -/
def sliceParts (preg off len : Nat) : List Span :=
  ((List.range 4).filter fun n => n * sliceBytes < off + len && off < (n + 1) * sliceBytes).map fun n =>
    let lo := if off < n * sliceBytes then n * sliceBytes else off
    let hi := if off + len < (n + 1) * sliceBytes then off + len else (n + 1) * sliceBytes
    ⟨preg, lo, hi - lo, 16⟩

/-- GATHER's ranges, ports and beats (R142, R143, R179). The window may touch several slices; its part in each lies
inside one aperture (notes/assumptions/13.md). -/
def gatherPlan (k : Ctx) (f : GatherSlot) (cat : Nat) : Plan :=
  let pw := k.offset f.pw
  let po := k.offset f.po
  let nidx := (k.param f.pn).toNat % 65536
  let nb := f.nbm1 + 1
  let beats := (f.gm1 + 1) * nb
  let window := ((nidx - 1) * f.stride + nb) * 512
  let late := if cat = 2 then 7 else 8
  let parts := sliceParts f.pw pw window
  let p := Plan.of 10 (parts ++ [⟨f.po, po, beats * 512, 16⟩])
  { p with
    conds := [⟨nidx ≠ 0, 0x0302, f.pn, pw⟩, ⟨pw + window ≤ 4 * sliceBytes, 0x0602, f.pw, pw⟩]
    uses := parts.map (fun x => ⟨x.off.toNat, 0, 0, beats, 1⟩) ++ [⟨po, 1, late, beats, 1⟩]
    ends := beats - 1 + late }

/-- One row of a GATHER: row r of entry e, or zeros for an entry out of range, which is counted with its first row's
write (R141, R142). -/
def gatherBeat (f : GatherSlot) (xs : List Word) : TaskBeat := fun a i j s =>
  let d := i.beat - j.issued
  let k := j.ctx (s.ctxAt a)
  let nb := f.nbm1 + 1
  let nidx := (k.param f.pn).toNat % 65536
  let x := (xs.getD (d / nb) 0).toNat
  let due := i.beat + if s.catOf i.tenant = 2 then 7 else 8
  let dst := k.offset f.po + 512 * d
  if x < nidx then
    let off := k.offset f.pw + (x * f.stride + d % nb) * 512
    let s := s.scan a i [(off, 512)]
    (s.file a [(due, .spad dst ((s.cluster a.die a.phys).read off 512))], j)
  else
    let count := if d % nb = 0 then [(due, Commit.events f.vc { SelEvents.none_ with goor := 1 })] else []
    (s.file a ((due, .spad dst (List.replicate 512 0)) :: count), j)

/-- GATHER (R141 to R143): the bank is read on the issue beat (R146). -/
def execGather (a : Issue) (f : GatherSlot) (s : State) : Host.Outcome State Fault Refusal :=
  done s (s.slot_ a fun i => s.guarded a i (gatherPlan (s.ctxAt a) f (s.catOf i.tenant)) fun s =>
    let xs := Tab.getRun 0 (s.cluster a.die a.phys).xb (64 * f.xb) (f.gm1 + 1)
    let beats := (f.gm1 + 1) * (f.nbm1 + 1)
    (s.occupy a f.vc beats).start a i beats (.gather f xs) (gatherBeat f xs))

/-- The state of a scatter while it takes its entries (R144): places used per destination, fallback
slots used, the map so far (last entry first), which source row fills a slot, and the counts. -/
structure ScatterAcc where
  used : Tab Nat
  fb : Nat
  map : List Word
  fill : Tab Nat
  ev : SelEvents
  placed : Nat
  deriving DecidableEq, Repr

/-- Decide one entry of R144: `row` is its source row. -/
def scatterEntry (d cap fcap row : Nat) (acc : ScatterAcc) (w : Word) : ScatterAcc :=
  let n := w.toNat
  let dropped := { acc with map := 0xFFFFFFFF :: acc.map }
  let fallback := { acc with fb := acc.fb + 1, map := BitVec.ofNat 32 (d * cap + acc.fb) :: acc.map,
                             fill := Tab.insert acc.fill (d * cap + acc.fb) row }
  if w = 0xFFFFFFFF then dropped
  else if n < d then
    let u := Tab.get 0 acc.used n
    if u < cap then
      { acc with used := Tab.set 0 acc.used n (u + 1), map := BitVec.ofNat 32 (n * cap + u) :: acc.map,
                 fill := Tab.insert acc.fill (n * cap + u) row, placed := acc.placed + 1 }
    else if acc.fb < fcap then { fallback with ev := { acc.ev with sovf := acc.ev.sovf + 1 } }
    else { dropped with ev := { acc.ev with sovf := acc.ev.sovf + 1, sdrop := acc.ev.sdrop + 1 } }
  else if acc.fb < fcap then { fallback with ev := { acc.ev with sbad := acc.ev.sbad + 1 } }
  else { dropped with ev := { acc.ev with sbad := acc.ev.sbad + 1, sdrop := acc.ev.sdrop + 1 } }

/-- Every entry in ascending order; entry e belongs to source row e / kr. -/
def scatterAll (d cap fcap kr : Nat) (ws : List Word) : ScatterAcc :=
  (ws.zip (List.range ws.length)).foldl (fun acc p => scatterEntry d cap fcap (p.2 / kr) acc p.1)
    { used := [], fb := 0, map := [], fill := [], ev := SelEvents.none_, placed := 0 }

/-- What the register PF of a SCATTER gives: FCAP, NB and KR (R137). -/
def scatterShape (k : Ctx) (f : ScatterSlot) : Nat × Nat × Nat :=
  let pf := k.param f.pf
  (bitsOf pf 0 13, bitsOf pf 13 6 + 1, bitsOf pf 19 3 + 1)

/-- Slots of a SCATTER's slot area: D × CAP + FCAP. -/
def scatterSlots (k : Ctx) (f : ScatterSlot) : Nat := (f.dm1 + 1) * (f.cm1 + 1) + (scatterShape k f).1

/-- SCATTER's ranges, ports and beats (R145, R179). -/
def scatterPlan (k : Ctx) (f : ScatterSlot) (cat : Nat) : Plan :=
  let pl := k.offset f.pl
  let ps := k.offset f.ps
  let po := k.offset f.po
  let pm := k.offset f.pm
  let (_, nb, kr) := scatterShape k f
  let t := f.tm1 + 1
  let slots := scatterSlots k f
  let mapPer := if t < 128 then 4 * t else 512
  let lists := (t + 127) / 128
  let late := if cat = 2 then 7 else 8
  let phase := lists + if cat = 2 then 12 else 14
  let w := slots * nb
  let p := (Plan.of 10
    [⟨f.pl, pl, 4 * t, 16⟩, ⟨f.pm, pm, 4 * t, if mapPer ≤ 496 then 0 else 16⟩,
     ⟨f.po, po, slots * nb * 512, 16⟩, ⟨f.ps, ps, t / kr * nb * 512, 16⟩]).reads pl lists
  let last := phase + w - 1 + late
  { p with
    uses := p.uses ++ [⟨ps, 0, phase, w, 1⟩, ⟨pm, 1, phase, lists, 1⟩, ⟨po, 1, phase + late, w, 1⟩]
    ends := if last < phase + lists - 1 then phase + lists - 1 else last }

/-- Beats from issue to the write phase of a SCATTER (R145). -/
def scatterPhase (f : ScatterSlot) (cat : Nat) : Nat := (f.tm1 + 128) / 128 + if cat = 2 then 12 else 14

/-- The map and the counts of a SCATTER on their way: 128 map words a beat from the write phase's first beat; the counts
land with the last (R145, R148). -/
def scatterCommits (f : ScatterSlot) (pm first : Nat) (r : ScatterAcc) : List (Nat × Commit) :=
  let words := r.map.reverse
  let lists := (f.tm1 + 128) / 128
  let last := first + lists - 1
  ((List.range lists).map fun m =>
    (first + m, Commit.spad (pm + 512 * m) (bytesOfWords ((words.drop (128 * m)).take 128)))) ++
  [(last, .placed f.vc r.placed r.fb)] ++ if r.ev = SelEvents.none_ then [] else [(last, .events f.vc r.ev)]

/-- One beat of a SCATTER: a list beat, after the last of which the entries are decided; a beat between; or a beat of the
write phase, which reads the row of the slot being filled and writes it, or zeros, later (R144, R145). -/
def scatterBeat (f : ScatterSlot) (fill : List (Nat × Nat)) : TaskBeat := fun a i j s =>
  let d := i.beat - j.issued
  let k := j.ctx (s.ctxAt a)
  let cat := s.catOf i.tenant
  let (fcap, nb, kr) := scatterShape k f
  let t := f.tm1 + 1
  let lists := (f.tm1 + 128) / 128
  let phase := scatterPhase f cat
  if d < lists then
    let off := k.offset f.pl + 512 * d
    let n := if 4 * t - 512 * d < 512 then 4 * t - 512 * d else 512
    let s := s.scan a i [(off, n)]
    let got := j.got ++ (s.cluster a.die a.phys).read off n
    if d + 1 = lists then
      let r := scatterAll (f.dm1 + 1) (f.cm1 + 1) fcap kr (wordsOfBytes got)
      (s.file a (scatterCommits f (k.offset f.pm) (j.issued + phase) r), { j with work := .scatter f r.fill, got := [] })
    else (s, { j with got := got })
  else if d < phase then (s, j)
  else
    let row := d - phase
    let due := i.beat + if cat = 2 then 7 else 8
    let dst := k.offset f.po + 512 * row
    match fill.find? fun e => e.1 = row / nb with
    | some e =>
      let off := k.offset f.ps + (e.2 * nb + row % nb) * 512
      let s := s.scan a i [(off, 512)]
      (s.file a [(due, .spad dst ((s.cluster a.die a.phys).read off 512))], j)
    | none => (s.file a [(due, .spad dst (List.replicate 512 0))], j)

/-- SCATTER (R144, R145). -/
def execScatter (a : Issue) (f : ScatterSlot) (s : State) : Host.Outcome State Fault Refusal :=
  done s (s.slot_ a fun i =>
    let k := s.ctxAt a
    let cat := s.catOf i.tenant
    let beats := scatterPhase f cat + scatterSlots k f * (scatterShape k f).2.1
    s.guarded a i (scatterPlan k f cat) fun s =>
      (s.occupy a f.vc beats).start a i beats (.scatter f []) (scatterBeat f []))

end Sys2Proof.Machine
end

