-- ==== Sys2Proof/Machine/Jobs.lean ====
section
/-!
DEFINITION. What the slots under way do at the end of a beat: the results whose beat it is land (R81, R126, R139, R142,
R145, R160, R171), and each slot reads for the beat that follows, from what stands at the end of this one
(R184). A halt drops both (R448).
-/

namespace Sys2Proof.Machine

/-- A tile part enters a bank (R75): the first beat begins the bank anew, the last makes it one that was loaded. -/
def Bank.take (b : Bank) (fmt : Nat) (transposed first last : Bool) (elems scales : List (Nat × Nat)) : Bank :=
  let b := if first then { b with fmt := fmt, transposed := transposed, elems := [], scales := [] } else b
  { b with elems := Tab.putAll 0 b.elems elems, scales := Tab.putAll 0 b.scales scales, valid := b.valid || last }

/-- A write of a slice that a plate makes: what it meets in a partial word is recorded (R187). -/
def State.plateWrite (s : State) (a : Issue) (i : Issuer) (off : Nat) (bytes : List Byte) : State :=
  (s.modCluster a.die a.phys fun c => c.write off bytes).eccFlush a.die a.phys (some i.tenant) i.beat
    (67108864 + a.ctx * 134217728)

/-- Raise flags and counts of an array, with the tenant's summary (R103, R415, R450). -/
def State.matrixEvents (s : State) (a : Issue) (i : Issuer) (arr : Nat) (fl : Flags4) (nans sats : Nat) : State :=
  (s.modCluster a.die a.phys fun c => c.setArr arr ((c.arr arr).raise fl nans sats)).summarise i.tenant fun m =>
    m.addMatrix fl nans sats

/-- A result lands at the end of the issuer's beat. -/
def State.land (s : State) (a : Issue) (i : Issuer) (x : Commit) : State :=
  let arr := fun (n : Nat) (f : Arr → Arr) => s.modCluster a.die a.phys fun c => c.setArr n (f (c.arr n))
  let core := fun (n : Nat) (f : VCore → VCore) => s.modCluster a.die a.phys fun c => c.setVcore n (f (c.vcore n))
  match x with
  | .spad off bytes => s.plateWrite a i off bytes
  | .data off bytes _ => s.modCluster a.die a.phys fun c => c.writeData (c.ctx a.ctx) off bytes
  | .vreg n r ws => core n fun v => v.setReg r ws
  | .row n r m l => core n fun v => v.setRow r (m, l)
  | .rope n ws => core n fun v => { v with rope := Tab.setRun 0 v.rope 0 ws }
  | .vflags n fl => (core n fun v => v.raise fl).summarise i.tenant fun m => m.addVector fl
  | .index b ws => s.modCluster a.die a.phys fun c => c.setBank64 b ws
  | .events n e => (core n fun v => v.count e).summarise i.tenant fun m => m.addSelection e
  | .placed n p f => core n fun v => { v with placed := p, fbused := f }
  | .tile n b fmt transp first last elems scales =>
    arr n fun x => x.setBank b ((x.bank b).take fmt transp first last elems scales)
  | .mflags n fl => s.matrixEvents a i n fl 0 0
  | .feed w =>
    let bank := ((s.cluster a.die a.phys).arr w.slot.arr).bank w.slot.tb
    s.file a (w.commits bank (s.seedOf i.tenant) (s.catOf i.tenant) (i.beat - usableAfter))
  | .column w =>
    let x := (s.cluster a.die a.phys).arr w.arr
    let (y, ws, fl) := w.accumulate x
    let s := (arr w.arr fun _ => y).matrixEvents a i w.arr fl 0 0
    if w.acc = 0 || w.acc = 3 then s.file a [(i.beat + w.conv, w.convert x.table ws)] else s
  | .output n off bytes scale fl nans sats =>
    let s := s.plateWrite a i off bytes
    let s := match scale with
      | some (o, b) => s.plateWrite a i o [b]
      | none => s
    s.matrixEvents a i n fl nans sats
  | .table n base es => arr n fun x => { x with table := Tab.setRun 0 x.table base es }
  | .tableState n v => arr n fun x => { x with tab := v }
  | .setupState n v => arr n fun x => { x with cfg := v }
  | .xreg r v => s.modCluster a.die a.phys fun c => { c with x := Tab.set 0 c.x r v }
  | .check r => s.modCtx a fun k => k.deposit r
  | .loop w => s.modCtx a fun k => k.control i.beat (.loop w)
  | .finish => s.modCtx a fun k => k.control i.beat .finish
  | .idle rep => s.modCtx a fun k => k.control i.beat (.idle rep)

/-- A store slot's write of the data SRAM lands after the scalar core's, so that its value is kept (R171). -/
def Commit.isStore : Commit → Bool
  | .data _ _ b => b
  | _ => false

/-- Every result due by the issuer's beat lands, the later issued later (notes/assumptions/38.md). -/
def State.landDue (s : State) (a : Issue) (i : Issuer) : State :=
  let now := ((s.ctxAt a).commits.filter fun x => x.1 ≤ i.beat).map (·.2)
  let s := s.modCtx a fun k => { k with commits := k.commits.filter fun x => !(x.1 ≤ i.beat) }
  (now.filter (!·.isStore) ++ now.filter (·.isStore)).foldl (fun s x => s.land a i x) s

/-- The next beat of a job. -/
def Work.step : Work → TaskBeat
  | .load f transp => loadBeat f transp
  | .stream f u => streamBeat f u
  | .tload f => tloadBeat f
  | .topk f => topkBeat f
  | .gather f xs => gatherBeat f xs
  | .scatter f fill => scatterBeat f fill
  | .store op f => storeBeat op f
  | .send f crc => sendBeat f crc

/-- Every slot under way takes the issuer's beat; one that has no further beat is done. -/
def State.runJobs (s : State) (a : Issue) (i : Issuer) : State :=
  let js := (s.ctxAt a).jobs
  let r := js.foldl (fun acc j =>
    let (s, j) := j.work.step a i j acc.1
    (s, if i.beat + 1 < j.issued + j.beats then acc.2 ++ [j] else acc.2)) (s, ([] : List Task))
  r.1.modCtx a fun k => { k with jobs := r.2 }

/-- The end of a beat for what is under way. After the last beat of an exposure what is still on its way lands within the
boundary, and nothing reads any more (notes/assumptions/24.md). -/
def State.endWork (s : State) (a : Issue) (i : Issuer) (last : Bool) : State :=
  if last then
    let s := (List.range 64).foldl (fun s n => s.landDue a { i with beat := i.beat + n }) s
    s.modCtx a fun k => { k with jobs := [], commits := [] }
  else (s.landDue a i).runJobs a { i with beat := i.beat + 1 }

end Sys2Proof.Machine
end

