-- ==== Sys2Proof/Machine/Slices.lean ====
section
/-!
DEFINITION. Slice power states and the drain (R190 to R194).
-/

namespace Sys2Proof.Machine

def SliceTarget.code : SliceTarget → Nat
  | .off => 0 | .ret => 1 | .on => 2

def SliceTarget.ofCode (n : Nat) : Option SliceTarget :=
  match n with
  | 0 => some .off | 1 => some .ret | 2 => some .on | _ => none

def SliceSt.code : SliceSt → Nat
  | .off => 0 | .opening => 1 | .on => 2 | .closing => 3 | .ret => 4

/-- A slice is in transition: a TARGET write is held until it ends (R191). -/
def Slice.moving (x : Slice) : Bool :=
  match x.st with
  | .opening => true
  | .closing => true
  | .ret => x.target = .off
  | _ => false

/-- Begin CLOSING on beat c (R192). -/
def Slice.close (x : Slice) (c : Nat) : Slice :=
  { x with st := .closing, since := c, probes := [], drained := none, probeAt := c }

/-- A target takes effect on a slice that is not in transition (R190, R191): a TARGET of RET on an OFF
slice starts nothing. -/
def Slice.aim (x : Slice) (t : SliceTarget) (beat : Nat) : Slice :=
  let y := { x with target := t, held := none }
  match x.st, t with
  | .on, .on => y
  | .on, _ => y.close beat
  | .off, .on => { y with st := .opening, fromOff := true, since := beat }
  | .off, _ => y
  | .ret, .on => { y with st := .opening, fromOff := false, since := beat }
  | .ret, .off => { y with since := beat }
  | .ret, .ret => y
  | _, _ => y

/-- A write of TARGET: held during a transition, the last value written standing (R191). -/
def Slice.setTarget (x : Slice) (t : SliceTarget) (beat : Nat) : Slice :=
  if x.moving then { x with held := some t } else x.aim t beat

/-- The end of a transition applies a held target (R191). -/
def Slice.settle (x : Slice) (beat : Nat) : Slice :=
  match x.held with
  | some t => { x with held := none }.aim t beat
  | none => x

def State.regionOf (s : State) (die phys : Nat) : Region := s.region (regionKey die phys)

def State.modSlice (s : State) (die phys i : Nat) (f : Slice → Slice) : State :=
  s.modCluster die phys fun c => c.setSlice i (f (c.slice i))

/-! The drain (R192). -/

/-- The router of a source of a die, by its SRCID (R203). -/
def srcPhys (src : Nat) : Nat :=
  if src < 24 then src else if src < 28 then 6 * (src - 24) + 5 else if src < 34 then src - 28
  else if src < 40 then src - 16 else 6

/-- The input lane by which a source injects on a virtual channel (R195, R205). -/
def srcLane (src vc : Nat) : Nat := if src < 24 then 0 else if src < 28 then 7 + vc % 3 else 5 + vc % 2

/-- The sources a drain of a slice waits for (R192): every router port, the bridge and link stations, and on die 0 the
Ethernet station, but those whose router is out of service. A cluster without a logical number has no address, so that
nothing can send writes to it. -/
def State.drainSources (s : State) (die phys : Nat) : List Nat :=
  if (s.logOf die phys).isNone then []
  else (List.range (if die = 0 then 41 else 40)).filter fun n => !s.routerOut die (srcPhys n)

/-- A drain probe of a source: an empty WRITE with TRL on VC 0, and on each other channel the FENCE that orders it
(R192, R204, R207). -/
def State.probePacket (s : State) (die l slice src vc : Nat) : Packet :=
  { daddr := s.sharedAddr die l (slice * sliceBytes), op := if vc = 0 then 1 else 5, len := 0, trl := vc = 0, ep := 0,
    vc := vc, tenant := 0, srcid := src, spkg := s.slot, sdie := die, tag := 0, status := 0, chk := false, data := [] }

/-- Every source sends its probe to a slice that begins CLOSING. The Ethernet station's goes behind what waits there. -/
def State.sendProbes (s : State) (die phys slice : Nat) : State :=
  match s.logOf die phys with
  | none => s
  | some l => (s.drainSources die phys).foldl (fun s src =>
      let ps := (List.range 4).map (s.probePacket die l slice src)
      if src = 40 then ({ s with eth := { s.eth with inbox := s.eth.inbox ++ ps } }).pumpEth
      else ps.foldl (fun s p =>
        s.inject die (srcPhys src) (srcLane src p.vc) (3 * p.vc + if 24 ≤ src && src < 28 then 1 else 0) src p) s) s

/-- Change the state of a slice; where that begins CLOSING the drain begins. -/
def State.moveSlice (s : State) (die phys i : Nat) (f : Slice → Slice) : State :=
  let before := ((s.cluster die phys).slice i).st
  let s := s.modSlice die phys i f
  if before ≠ .closing && ((s.cluster die phys).slice i).st = .closing then s.sendProbes die phys i else s

/-- A slice is declared by the plate of a tenant that is Bound, Armed or Running (R191). -/
def State.declared (s : State) (die p slice : Nat) : Bool :=
  s.tenants.any fun e => (e.2.st = .bound || e.2.st = .armed || e.2.st = .running) && match e.2.binding with
    | some b => b.slices.any fun x => x.2 = slice && b.place x.1 = some (die, p)
    | none => false

/-! SPAD_PWR. -/

/-- Judge a control-space access to a block of a logical cluster: BOUNDS for an absent one (R26), FAULT for
a core-island block of an occulted one or any block of a failed router (R212). -/
def State.blockOf (s : State) (die cluster : Nat) (core : Bool) : Status × Nat :=
  match s.physOf die cluster with
  | none => (.bounds, 0)
  | some p =>
    if s.pstate die p = 2 || (core && s.pstate die p = 3) then (.fault, p) else (.ok, p)

/-- Count an AUTH attempt under cause 0x16 (R11): the address and the agent's kind. -/
def State.authCount (s : State) (a : Agent) (die phys addr : Nat) : State :=
  let own := a.kind = .host || a.kind = .remote
  s.record die 1 0x16 (if own then some a.tenant else none) phys (if own then s.beatNow a.tenant else 0)
    (BitVec.ofNat 64 (addr + agentKindCode a.kind * 2 ^ 48)) false

/-- Control-space address of a cluster register (R7, R9). -/
def State.regAddr (s : State) (die cluster off : Nat) : Nat :=
  s.slot * 2 ^ 44 + die * 2 ^ 43 + cluster * 2 ^ 38 + 2 * 2 ^ 36 + off

/-- A write of SPAD_PWR of a physical cluster that answers for its logical number (R10, R11, R191, R194): DTO is
cleared by a 1, unless it was set on this beat; TARGET is the keeper's, and its reserved code is ignored. The keeper sets no
target but ON for a slice a Bound, Armed or Running tenant declares: such a write is not performed and returns BUSY
(notes/assumptions/104.md). -/
def State.writeSpadPwr (s : State) (a : Agent) (die p slice : Nat) (value : Word) : State × Status :=
  let x := (s.cluster die p).slice slice
  let s := if value.getLsbD 6 && !(s.justSet (clSite die p) (0x5010 + 4 * slice)).getLsbD 6 then
      s.modSlice die p slice fun x => { x with dto := false }
    else s
  let t := bitsOf value 0 2
  if a.kind = .keeper then
    match SliceTarget.ofCode t with
    | some t =>
      if t ≠ .on && s.declared die p slice then (s, .busy)
      else (s.moveSlice die p slice fun x => x.setTarget t (s.regionOf die p).beat, .ok)
    | none => (s, .ok)
  else if t = x.target.code then (s, .ok)
  else (s, .auth)

/-- SPAD_PWR_WRITE: AUTH is counted (R11). -/
def execSpadPwrWrite (a : Agent) (die cluster slice : Nat) (value : Word) (s : State) :
    Host.Outcome State Fault Refusal :=
  done s (
    if s.power.st = .off then s
    else match s.blockOf die cluster true with
    | (.ok, p) =>
      let (t, st) := s.writeSpadPwr a die p slice value
      let t := if st = .auth then t.authCount a die p (s.regAddr die cluster (0x5010 + 4 * slice)) else t
      t.answer st []
    | (st, _) => s.answer st [])

/-- The probes still missing, as cause 0x31 names them. -/
def State.missingProbes (s : State) (die phys : Nat) (x : Slice) : Nat :=
  ((s.drainSources die phys).filter fun n => !x.probes.contains n).foldl (fun (m : Nat) n => m + 2 ^ n) 0

/-- SLICE_DRAIN_COMPLETE (R192): every probe is in and every write performed before has committed; g is the beat after the
later of the two, and from it the slice is logically dark. -/
def execSliceDrainComplete (die phys slice : Nat) (s : State) : Host.Outcome State Fault Refusal :=
  done s (
    let x := (s.cluster die phys).slice slice
    let writes := x.landing.isEmpty && !(x.waiting.any fun w => w.pkt.op = 1)
    let last := max x.probeAt x.commitAt
    let g := (if x.since ≤ last then last else x.since) + 1
    if x.st = .closing && x.drained.isNone && s.missingProbes die phys x = 0 && writes then
      s.modSlice die phys slice fun x => { x with drained := some g }
    else s)

/-- SLICE_DRAIN_TIMEOUT (R192): probes missing by beat c + 65,536 set g to c + 65,537. -/
def execSliceDrainTimeout (die phys slice : Nat) (s : State) : Host.Outcome State Fault Refusal :=
  done s (
    let x := (s.cluster die phys).slice slice
    let m := s.missingProbes die phys x
    if x.st = .closing && x.drained.isNone && m ≠ 0 && x.since + 65536 ≤ (s.regionOf die phys).beat then
      let s := s.modSlice die phys slice fun x => { x with drained := some (x.since + 65537), dto := true }
      let s := s.note (clSite die phys) (0x5010 + 4 * slice) 0 64 fun a b => a ||| b
      let s := s.record die 3 0x31 none phys 0 (BitVec.ofNat 64 (m + slice * 2 ^ 41)) false
      s.noteRecord die []
    else s)

/-- The unscheduled writes of a cluster's slices commit at the end of the beat on which they took their port, and are answered
(R184, R187, R204). -/
def State.commitLanding (s : State) (die phys : Nat) : State :=
  (List.range 4).foldl (fun s i =>
    let x := (s.cluster die phys).slice i
    if x.landing.isEmpty then s
    else
      let s := s.modSlice die phys i fun x => { x with landing := [], commitAt := (s.regionOf die phys).beat }
      x.landing.foldl (fun s y =>
        let p := y.pkt
        let s := (s.modCluster die phys fun c => c.write (addrOff p.daddr) (p.data.take p.len)).eccFlush die phys
          (some p.tenant) (s.beatNow p.tenant) 0
        s.respond die phys 0 p .ok []) s) s

/-- Contents lost: bytes and ECC state of a slice. -/
def Cluster.blank (c : Cluster) (i : Nat) : Cluster := c.zero (i * sliceBytes) sliceBytes

/-- SLICE_CLOSE_DONE (R190): 64 beats after the drain, or after RET was aimed at OFF. A slice that closed for an entry to
Retained that has been abandoned opens again (R379). -/
def execSliceCloseDone (die phys slice : Nat) (s : State) : Host.Outcome State Fault Refusal :=
  done s (
    let x := (s.cluster die phys).slice slice
    let beat := (s.regionOf die phys).beat
    let ready := match x.st with
      | .closing => (match x.drained with
        | some g => decide (g + 64 ≤ beat)
        | none => false)
      | .ret => decide (x.target = .off) && decide (x.since + 64 ≤ beat)
      | _ => false
    if !ready then s
    else
      let toOff := x.target = .off
      let s := if toOff then s.modCluster die phys (·.blank slice) else s
      let entry := s.power.st = .active && !s.power.moving
      s.moveSlice die phys slice fun x =>
        let y := { x with st := if toOff then .off else .ret, drained := none, probes := [], scrubFix := [] }.settle beat
        if y.st = .ret && y.target = .on && (entry || s.power.target = .active) then y.aim .on beat else y)

/-- SLICE_OPEN_DONE (R190): 640 beats from RET, 33,408 from OFF; a slice from OFF comes up zero. -/
def execSliceOpenDone (die phys slice : Nat) (s : State) : Host.Outcome State Fault Refusal :=
  done s (
    let x := (s.cluster die phys).slice slice
    let beat := (s.regionOf die phys).beat
    if x.st = .opening && x.since + (if x.fromOff then 33408 else 640) ≤ beat then
      let s := if x.fromOff then s.modCluster die phys (·.blank slice) else s
      s.moveSlice die phys slice fun x => { x with st := .on, fromOff := false, scrubLast := beat }.settle beat
    else s)

end Sys2Proof.Machine
end

