-- ==== Sys2Proof/Machine/Power.lean ====
section
/-!
DEFINITION. Region clocks, the governor, emergencies, rails and the package power states (R355 to R382).
-/

namespace Sys2Proof.Machine

/-! Runs in a region. -/

/-- Whether a tenant's run is executing plate beats in a region. -/
def Tenant.inRegion (t : Tenant) (region : Nat) : Bool :=
  match t.run, t.binding with
  | some r, some b =>
    t.st = .running && r.phase = .inExposure && b.regions.contains region && !r.done.contains region &&
      0 < Tab.get 0 r.beats region
  | _, _ => false

/-- The tenants executing plate beats in a region. -/
def State.runsIn (s : State) (region : Nat) : List Nat :=
  (s.tenants.filter fun e => e.2.inRegion region).map (·.1)

/-- Apply a change to the run of every tenant executing in a region. -/
def State.modRunsIn (s : State) (region : Nat) (f : Run → Run) : State :=
  (s.runsIn region).foldl (fun s t => s.modRun t f) s

/-- A region's clock advances: its ADPLL is locked, not gated, and the package is in a state with region
clocks (R355). -/
def State.clocked (s : State) (region : Nat) : Bool :=
  s.power.st = .active && (s.region region).lock && !(s.region region).gated

/-! Stretches (R41, R359, R362). -/

/-- A region passes a run's exposure boundary and no exposure: its periods are boundary time, no holds or stretches (R47). -/
def State.atBoundary (s : State) (region : Nat) : Bool :=
  let here := s.tenants.filter fun e => e.2.st = .running && e.2.run.isSome && e.2.binding.any fun b => b.regions.contains region
  (here.any fun e => e.2.run.any fun r => r.phase = .boundary || r.done.contains region) && (s.runsIn region).isEmpty

/-- The beat in progress in a region is stretched: one period, however many causes ask for it (R41). -/
def State.stretch (s : State) (region : Nat) : State :=
  let x := s.region region
  if x.stretched = x.beat + 1 || s.atBoundary region then s
  else
    let s := s.setRegion region { x with stretches := x.stretches + 1, stretched := x.beat + 1 }
    s.modRunsIn region fun r => { r with stretch := satAdd r.stretch 1 }

/-- DROOP_STRETCH (R359): a slack code below CLK_GOV STRETCH warns the region, which stretches the warned
beat. -/
def execDroopStretch (region _monitor slack : Nat) (s : State) : Host.Outcome State Fault Refusal :=
  done s (
    if region < 8 && s.clocked region then
      let s := s.setRegion region { s.region region with snow := slack % 64 }
      if slack < bitsOf (s.clkGov (region / 4)) 0 6 then s.stretch region else s
    else s)

/-! The governor (R358, R366 to R368). -/

/-- CLK_FMAX K of a die; values below 1 act as 1 (R381). -/
def State.fmax (s : State) (die : Nat) : Nat :=
  let k := bitsOf (s.reg (dieSite die) 0x0008 16) 0 5
  if k < 1 then 1 else if 16 < k then 16 else k

/-- The voltage written to a die's VDD_CORE. -/
def State.railOf (s : State) (die : Nat) : Nat := if die = 0 then s.pins.rail0 else s.pins.rail1

def State.setRail (s : State) (die v : Nat) : State :=
  if die = 0 then { s with pins := { s.pins with rail0 := v } } else { s with pins := { s.pins with rail1 := v } }

/-- The voltage that the steps of a die need, a pending step up counted as taken (R366, R368). -/
def State.railNeed (s : State) (die : Nat) : Nat :=
  s.coreTarget die fun r => let x := s.region r; if x.pendUp then x.k + 1 else x.k

/-- Set a region's ladder step and lower or raise the die's voltage with it (R367). -/
def State.stepTo (s : State) (region k : Nat) (pend : Bool) : State :=
  let s := s.setRegion region { s.region region with k := k, pendUp := pend }
  s.setRail (region / 4) (s.railNeed (region / 4))

/-- A region asks for a step up: it is taken at once when the die's voltage already serves it, and else
waits for the grant (R367, R368). -/
def State.askUp (s : State) (region : Nat) : State :=
  let die := region / 4
  let x := s.region region
  let need := s.coreTarget die fun r => if r = region then x.k + 1 else (s.region r).k
  if need ≤ s.railOf die then s.stepTo region (x.k + 1) false else s.stepTo region x.k true

/-- GOVERNOR_WINDOW (R358): the rows in order. A region left at 850 MHz when no emergency or duty is in
force returns to the rate floor (notes/assumptions/14.md). -/
def execGovernorWindow (region smin monitor : Nat) (s : State) : Host.Outcome State Fault Refusal :=
  done s (
    if !(region < 8 && s.clocked region) then s
    else
      let die := region / 4
      let s := s.setRegion region { s.region region with smin := smin % 64, mon := monitor % 16 }
      let x := s.region region
      let gov := s.clkGov die
      if s.power.emergency || 0 < s.power.duty then s.stepTo region (x.k - 1) false
      else if x.monitorFailed then (if x.k = 0 then s.askUp region else s.stepTo region 1 false)
      else if x.pendUp then s
      else if x.k = 0 then s.askUp region
      else if smin < bitsOf gov 6 6 then (if 1 < x.k then s.stepTo region (x.k - 1) false else s)
      else if bitsOf gov 12 6 ≤ smin && x.k < s.fmax die then s.askUp region
      else s)

/-- VOLTAGE_GRANT (R367): the pending step up is taken. -/
def execVoltageGrant (region : Nat) (s : State) : Host.Outcome State Fault Refusal :=
  done s (
    let x := s.region region
    if region < 8 && x.pendUp && !s.power.emergency then s.stepTo region (x.k + 1) false else s)

/-- RATE_SHORTFALL (R361): the tenant's last 4,096 beats took `span` eighths of a nanosecond; above
4,818.8 ns it is a shortfall. -/
def execRateShortfall (tenant region span : Nat) (s : State) : Host.Outcome State Fault Refusal :=
  done s (
    if !((s.tenant tenant).inRegion region) || span ≤ 38550 then s
    else
      let x := s.region region
      let w := if 0xFFFFFF < span then 0xFFFFFF else span
      let worst := if x.worst < w then w else x.worst
      let s := s.setRegion region { x with short := satAdd x.short 1, worst := worst }
      let s := s.noteCount (dieSite (region / 4)) (0x40 + 4 * (region % 4)) x.short 1
      let s := s.note (dieSite (region / 4)) (0x50 + 4 * (region % 4)) (BitVec.ofNat 32 x.worst) (BitVec.ofNat 32 w) wordMax
      let s := s.modRun tenant fun r => { r with short := satAdd r.short 1, rated := false }
      let s := s.record (region / 4) 3 0x34 (some tenant) 0x1F (s.beatNow tenant)
        (BitVec.ofNat 64 (region + worst * 8)) false
      s.noteRecord (region / 4) [tenant])

/-! Emergencies (R362, R363). -/

/-- Add a condition; when none was in force an emergency begins: counted, pending steps up cancelled
(R368), every run unrated, recorded. -/
def State.emergencyBegin (s : State) (cause : Nat) : State :=
  let p := s.power
  let causes := p.causes ||| cause % 8
  if cause % 8 = 0 then s
  else if p.emergency then { s with power := { p with causes := causes } }
  else
    let s := { s with power := { p with causes := causes, emergency := true, emergs := satAdd p.emergs 1,
                                        emergStep := s.clock.sid } }
    let s := s.noteCount (dieSite 0) 0x1030 p.emergs 1
    let s := (List.range 8).foldl (fun s r => s.setRegion r { s.region r with pendUp := false }) s
    let runs := s.runningTenants
    let s := runs.foldl (fun s t => s.modRun t fun r => { r with emerg := true, rated := false }) s
    let s := s.record 0 3 0x33 none 0x1F 0 (BitVec.ofNat 64 (causes + s.power.duty * 8)) false
    s.noteRecord 0 runs

/-- EMERGENCY_BEGIN: `cause` in the bits of CLK_EMERG CAUSE. -/
def execEmergencyBegin (cause : Nat) (s : State) : Host.Outcome State Fault Refusal :=
  done s (if s.power.st = .off || !s.boot.ready then s else s.emergencyBegin cause)

/-- EMERGENCY_END (R362): the last condition has cleared. -/
def execEmergencyEnd (s : State) : Host.Outcome State Fault Refusal :=
  done s (
    if s.power.emergency then
      { s with power := { s.power with emergency := false, causes := 0, emergStep := s.clock.sid } }
    else s)

/-- EMERGENCY_DUTY_STEP (R362): after each 100 µs the duty rises to 15 in an emergency and falls to 0
without one. -/
def execEmergencyDutyStep (s : State) : Host.Outcome State Fault Refusal :=
  done s (
    let p := s.power
    if !s.elapsed p.emergStep 100000 then s
    else if p.emergency then
      { s with power := { p with duty := if p.duty < 15 then p.duty + 1 else 15, emergStep := s.clock.sid } }
    else if 0 < p.duty then { s with power := { p with duty := p.duty - 1, emergStep := s.clock.sid } }
    else s)

/-- RAIL_FAULT (R365): recorded, and the package enters an emergency; at stage TEST it stops First Light
(R388). -/
def execRailFault (rail : Nat) (noAck : Bool) (s : State) : Host.Outcome State Fault Refusal :=
  done s (
    if s.power.st = .off || 3 ≤ rail then s
    else if s.boot.stage = 4 then s.bootFault 0x32
    else if !s.boot.ready then s
    else
      let s := s.record 0 3 0x35 none 0x1F 0 (BitVec.ofNat 64 (rail + if noAck then 8 else 0)) false
      (s.noteRecord 0 []).emergencyBegin 4)

/-! Wake budgets and the choice of a state (R372, R373). -/

/-- Exit time to Active in ns (R369, R377). -/
def PState.exitNs : PState → Nat
  | .active => 0 | .poised => 2000 | .retained => 45000 | .dark => 84304 | .off => 0

/-- Longest entry in ns: Poised 1 µs; Retained the slices' drain, bounded by its timeout, and 31 µs
(R378, R379). -/
def PState.entryNs : PState → Nat
  | .poised => 1000 | .retained => 31000 + 77177 | _ => 0

/-- The effective budget b (R373): the smallest of the budgets that count. -/
def State.budget (s : State) : Nat :=
  s.tenants.foldl (fun b e =>
    let counts := match e.2.st with
      | .loaded => true | .bound => true | .armed => true | .halted => true | _ => false
    if counts && e.2.budget.toNat < b then e.2.budget.toNat else b) s.power.budgetPkg.toNat

/-- The state R373 chooses; none stays Active. -/
def State.choose (s : State) : Option PState :=
  let fits := fun (p : PState) => s.budget = 0xFFFFFFFF || p.exitNs ≤ s.budget
  if 2 ≤ s.power.deepest && fits .retained then some .retained
  else if 1 ≤ s.power.deepest && fits .poised then some .poised
  else none

/-- The commands that need the fabric (R372), read from a queued CMD payload (R285, R300). -/
def fabricPayload (bs : List Byte) : Bool :=
  let code := leNat (bs.take 1)
  code = 0x03 || code = 0x04 || code = 0x05 || code = 0x06 || code = 0x07 || code = 0x09 || code = 0x10 ||
    code = 0x11 || (code = 0x0E && leNat ((bs.drop 8).take 1) = 2)

/-- A command that needs the fabric waits in a tenant's queue. -/
def State.fabricWaiting (s : State) : Bool :=
  s.tenants.any fun e => [e.2.session, e.2.opening].any fun o => o.any fun x =>
    x.queue.any fun q => q.2.1 = 1 && fabricPayload q.2.2

/-- A slice is in transition (R190). -/
def State.slicesMoving (s : State) : Bool :=
  s.clusters.any fun e => e.2.s0.moving || e.2.s1.moving || e.2.s2.moving || e.2.s3.moving

/-- Unscheduled traffic, a transfer or an epoch drain is in progress. -/
def State.trafficBusy (s : State) : Bool :=
  s.die0.draining || s.die1.draining || s.die0.flipAt.isSome || s.die1.flipAt.isSome ||
    (s.tenants.any fun e => e.2.xfer.isSome) ||
    (s.clusters.any fun e => [e.2.s0, e.2.s1, e.2.s2, e.2.s3].any fun x => !x.waiting.isEmpty || !x.landing.isEmpty) ||
    s.routers.any fun e => !e.2.bufs.isEmpty || !e.2.arrived.isEmpty || !e.2.trailing.isEmpty || !e.2.outbox.isEmpty

/-- The sidereal time at which a launch's wake begins, with a given exit time (R57). -/
def wakeAt (launch : DWord) (exitNs : Nat) : DWord := launch - nsUnits (exitNs + 1205)

/-- Whether the package may leave Active for a state now (R372). -/
def State.mayIdle (s : State) (goal : PState) : Bool :=
  s.power.st = .active && !s.power.moving && s.boot.ready && s.runningTenants.isEmpty && !s.fabricWaiting &&
    s.power.wakes.isEmpty && !s.trafficBusy && !s.slicesMoving &&
    s.elapsed s.power.idleSince (s.power.idleUs * 1000) && s.choose = some goal

/-- IDLE_ENTER_POISED (R378). -/
def execIdleEnterPoised (s : State) : Host.Outcome State Fault Refusal :=
  done s (
    if s.mayIdle .poised then
      { s with power := { s.power with moving := true, target := .poised, moveStart := s.clock.sid } }
    else s)

/-- Every ON slice begins CLOSING toward RET, its target unchanged (R190, R379). -/
def State.closeSlices (s : State) : State :=
  s.clusters.foldl (fun s e => (List.range 4).foldl (fun s i =>
    let die := e.1 / 24
    let phys := e.1 % 24
    s.moveSlice die phys i fun x => if x.st = .on then x.close (s.regionOf die phys).beat else x) s) s

/-- IDLE_ENTER_RETAINED (R379): step 1 of the entry. -/
def execIdleEnterRetained (s : State) : Host.Outcome State Fault Refusal :=
  done s (
    if s.mayIdle .retained then
      let s := { s with power := { s.power with moving := true, target := .retained, moveStart := s.clock.sid } }
      s.closeSlices
    else s)

/-- An array after Retained: its flags and counters are not among what R370 loses (notes/assumptions/86.md). -/
def Arr.retain (x : Arr) : Arr := { Arr.init with flags := x.flags, cols := x.cols, nan := x.nan, sat := x.sat }

/-- A vector core after Retained, likewise. -/
def VCore.retain (x : VCore) : VCore :=
  { x with vr := [], rows := [], rope := [], selUntil := 0 }

/-- What Retained loses (R370): tile banks, accumulators, tables, vector registers, index buffers and x1 to
x31. -/
def Cluster.retain (c : Cluster) : Cluster :=
  { c with a0 := c.a0.retain, a1 := c.a1.retain, v0 := c.v0.retain, v1 := c.v1.retain, xb := [], xbv := 0, x := [],
           ports := [], dport := [] }

/-- Set every region's ADPLL and gate. -/
def State.stopRegions (s : State) (lock gated : Bool) (k : Nat) : State :=
  (List.range 8).foldl (fun s r =>
    s.setRegion r { s.region r with lock := lock, gated := gated, pendUp := false, k := k }) s

/-- ENTRY_COMPLETE (R378, R379): into Poised with clocks gated at the floor, or, once no slice is ON or in
transition, into Retained. -/
def execEntryComplete (s : State) : Host.Outcome State Fault Refusal :=
  done s (
    if !s.power.moving then s
    else
      match s.power.target with
      | .poised =>
        let s := s.stopRegions true true 1
        { s with power := { s.power with st := .poised, moving := false } }
      | .retained =>
        let open_ := s.clusters.any fun e =>
          e.2.s0.st = .on || e.2.s1.st = .on || e.2.s2.st = .on || e.2.s3.st = .on
        if s.slicesMoving || open_ then s
        else
          let s := { s with clusters := s.clusters.map fun (e : Nat × Cluster) => (e.1, e.2.retain) }
          let s := s.stopRegions false false 0
          { s with power := { s.power with st := .retained, moving := false },
                   pins := { s.pins with rail0 := 0, rail1 := 0, rail2 := 500 } }
      | _ => s)

/-- Slices kept in RET begin to open with the exit from Retained (R190). -/
def Cluster.openKept (c : Cluster) (beat : Nat) : Cluster :=
  let f := fun (x : Slice) => if x.st = .ret && x.target = .on then x.aim .on beat else x
  { c with s0 := f c.s0, s1 := f c.s1, s2 := f c.s2, s3 := f c.s3 }

def State.openKept (s : State) : State :=
  { s with clusters := s.clusters.map fun e => (e.1, e.2.openKept (s.region (regionKey (e.1 / 24) (e.1 % 24))).beat) }

/-- Begin the exit to Active; an entry in progress is abandoned (R374, R379). -/
def State.beginExit (s : State) : State :=
  let p := s.power
  if p.st = .off then s
  else if p.moving && p.target = .active then s
  else if p.st = .active && !p.moving then s
  else
    let s := if p.st = .retained || p.target = .retained then s.openKept else s
    { s with power := { p with moving := true, target := .active, moveStart := s.clock.sid, wakes := [] } }

/-- A launch of a run that waits, whose wake time has come (R57, R374). -/
def State.launchDue (s : State) (t : Tenant) : Bool :=
  match t.run with
  | some r =>
    t.st = .running && r.phase = .waitLaunch && reached s.clock.sid (wakeAt r.launch s.power.st.exitNs)
  | none => false

/-- Depth of a state (R369). -/
def PState.depth : PState → Nat
  | .active => 0 | .poised => 1 | .retained => 2 | .dark => 3 | .off => 4

/-- Whether the present state is excluded by the budgets or DEEPEST (R373, R375). Dark is left only on
order. -/
def State.excluded (s : State) : Bool :=
  match s.power.st with
  | .poised => s.power.deepest < 1 || (s.budget ≠ 0xFFFFFFFF && s.budget < 2000)
  | .retained => s.power.deepest < 2 || (s.budget ≠ 0xFFFFFFFF && s.budget < 45000)
  | _ => false

/-- WAKE_EXIT (R374): one of the events of R374 has come. `wakes` holds the commands and operator orders
that asked for Active. -/
def execWakeExit (s : State) : Host.Outcome State Fault Refusal :=
  done s (
    if !s.power.wakes.isEmpty || s.fabricWaiting || s.excluded || s.tenants.any fun e => s.launchDue e.2 then
      s.beginExit
    else s)

/-- LAUNCH_WAKE_START (R57): at T minus the exit time minus 1,205 ns. -/
def execLaunchWakeStart (tenant : Nat) (s : State) : Host.Outcome State Fault Refusal :=
  done s (if s.launchDue (s.tenant tenant) then s.beginExit else s)

/-- Slices at the end of an exit: those kept in RET have opened within it and are ON, and after Dark every slice that passed
self-test comes up ON with zeros (R190, R377, R380). One still CLOSING for an abandoned entry goes on by itself. -/
def wakeSlice (dark ok : Bool) (beat : Nat) (x : Slice) : Slice :=
  if dark then (if ok && !x.fail then { x with st := .on, target := .on, fromOff := false, scrubLast := beat } else x)
  else if x.target = .on && (x.st = .ret || (x.st = .opening && !x.fromOff)) then
    { x with st := .on, drained := none, probes := [], scrubLast := beat }
  else x

def State.wakeSlices (s : State) (dark : Bool) : State :=
  (List.range 48).foldl (fun s n =>
    let die := n / 24
    let p := n % 24
    let beat := (s.regionOf die p).beat
    let ok := s.pstate die p < 2
    let c := s.cluster die p
    let f := wakeSlice dark ok beat
    s.setCluster die p { c with s0 := f c.s0, s1 := f c.s1, s2 := f c.s2, s3 := f c.s3 }) s

/-- EXIT_COMPLETE (R378, R380): Active, regions aligned at 856.25 MHz; `ns` is the measured duration, and one
above the state's exit time is a package fault. -/
def execExitComplete (ns : Nat) (s : State) : Host.Outcome State Fault Refusal :=
  done s (
    let p := s.power
    if !(p.moving && p.target = .active) then s
    else
      let from_ := p.st
      let left := if from_ = .active then PState.retained else from_
      let s := if from_ = .poised then s.stopRegions true false 1 else s
      let s := if from_ = .active then s else (s.startRegions 1).writeRails
      let s := s.wakeSlices (from_ = .dark)
      let s := if from_ = .dark then (s.buildTables 0 0).buildTables 1 0 else s
      let w := if 0xFFFFFF < ns then 0xFFFFFF else ns
      let s := { s with power := { s.power with st := .active, moving := false, target := .active,
                                                exits := satAdd p.exits 1, wakelat := w,
                                                wakeFrom := left.code, idleSince := s.clock.sid } }
      let s := s.noteCount (dieSite 0) 0x1028 p.exits 1
      if left.exitNs < ns then
        let s := s.record 0 3 0x36 none 0x1F 0 (BitVec.ofNat 64 (w + left.code * 16777216)) false
        s.noteRecord 0 []
      else s)

/-- A command that needs the fabric arrives while the package is not Active: it asks for the exit and waits
(R374, R380). The list names the tenants that asked. -/
def State.askWake (s : State) (tenant : Nat) : State :=
  { s with power := { s.power with wakes := tenant :: s.power.wakes.filter (· ≠ tenant) } }

/-- Fabric work has been done: the idle time starts again (R372). -/
def State.touch (s : State) : State := { s with power := { s.power with idleSince := s.clock.sid } }

/-- Links go DOWN and board time is lost (R376). -/
def State.dropLinks (s : State) : State :=
  { s with links := s.links.map fun (e : Nat × Link) =>
      (e.1, { Link.init with en := e.2.en, swappol := e.2.swappol, asym := e.2.asym, reason := e.2.reason,
                             retrain := e.2.retrain, since := s.clock.sid })
           clock := { s.clock with lock := false, sysLock := false, ptpLock := false } }

/-- Keep of a cluster in Dark only what self-test found of its slices. -/
def Cluster.dark (c : Cluster) : Cluster :=
  let f := fun (x : Slice) => { Slice.init with rows := x.rows, cols := x.cols, fail := x.fail }
  { Cluster.init with s0 := f c.s0, s1 := f c.s1, s2 := f c.s2, s3 := f c.s3 }

/-- A Bound or Halted tenant returns to Loaded with a NOTE (R376); the binding goes. -/
def State.toLoaded (s : State) (tenant reason : Nat) (seq : Word) : State :=
  let t := s.tenant tenant
  let s := s.setTenant tenant { t with st := .loaded, binding := none, staged := [] }
  s.sendStateNote tenant reason seq

/-- ENTER_DARK (R376). -/
def State.enterDark (s : State) : State :=
  let ts := (s.tenants.filter fun e => e.2.st = .bound || e.2.st = .halted).map (·.1)
  let s := ts.foldl (fun s t => s.toLoaded t 0 0) s
  let s := { s with
    clusters := s.clusters.map fun (e : Nat × Cluster) => (e.1, e.2.dark)
    routers := []
    barriers := []
    die0 := Die.init
    die1 := Die.init
    regs := s.regs.filter fun e => 24 ≤ e.1 / 2 ^ 20 % 32 }
  let s := (s.stopRegions false false 0).dropLinks
  { s with power := { s.power with st := .dark, moving := false, target := .dark, wakes := [] },
           pins := { s.pins with rail0 := 0, rail1 := 0, rail2 := 0 } }

end Sys2Proof.Machine
end

