-- ==== Sys2Proof/Machine/Time.lean ====
section
/-!
DEFINITION. Logical and sidereal time: the beat of a region (R39 to R45), exposures, gates and boundaries
(R46 to R50, R231 to R235), runs (R299), and the board's time (R51 to R54).
-/

namespace Sys2Proof.Machine

/-! Release times (R48, R59, R315). -/

/-- The exposure time bound of R59 in 1/65,536 ns, rounded up. -/
def Binding.bound (b : Binding) : Nat :=
  let e := if b.explen < 4096 then 4096 else b.explen
  (e * 65536 * 20 + 16) / 17 + (if b.scope = 0 then 100 else b.lead + 6) * 65536

/-- Whether a tenant owns all clusters of its binding in a slot (R314). -/
def Sched.owns (x : Sched) (tenant : Nat) (b : Binding) (slot : Nat) : Bool :=
  b.sites.all fun p => Tab.get 0xFFFF x.owner (slot * 48 + p.die * 24 + p.logical) = tenant

/-- Slots since S0 at a time; the slot in force is this number modulo NSLOT (R313). -/
def Sched.slotsSince (x : Sched) (t : DWord) : Nat :=
  if reached t x.s0 then (t - x.s0).toNat / (x.slotns * 65536) else 0

/-- The start of the n-th slot since S0. -/
def Sched.slotStart (x : Sched) (n : Nat) : DWord := x.s0 + BitVec.ofNat 64 (n * x.slotns * 65536)

/-- Release of a rotating plate's exposure (R315): at r when its slot is owned and the bound fits, else
1,300 ns into the next owned slot. -/
def Sched.defer (x : Sched) (tenant : Nat) (b : Binding) (r : DWord) : DWord :=
  let n := x.slotsSince r
  let fits := reached (x.slotStart (n + 1)) (r + BitVec.ofNat 64 b.bound)
  if x.nslot = 0 || x.slotns = 0 || (x.owns tenant b (n % x.nslot) && fits) then r
  else
    match ((List.range x.nslot).map fun j => n + 1 + j).find? fun m => x.owns tenant b (m % x.nslot) with
    | some m => x.slotStart m + nsUnits 1300
    | none => r

def State.deferRelease (s : State) (tenant : Nat) (b : Binding) (r : DWord) : DWord :=
  match s.schedule with
  | some x => if b.rotating then x.defer tenant b r else r
  | none => r

/-- Earliest release after an arrival: S_min of R232. -/
def State.earliest (s : State) (tenant : Nat) (b : Binding) (arrival : DWord) : DWord :=
  s.deferRelease tenant b (arrival + nsUnits (if b.scope = 0 then 100 else b.lead))

/-- The later of two sidereal times. -/
def later (x y : DWord) : DWord := if laterThan y x then y else x

/-- The release of exposure k + 1 once every stamp is held (R48). -/
def State.release (s : State) (tenant : Nat) (b : Binding) (r : Run) : Option DWord :=
  if b.scope = 0 then some (s.earliest tenant b r.arrival)
  else
    let peers := b.boardPeers s.slot s.boardIndex
    let held := r.stamps.filter fun x => x.2.1 = r.exp
    if peers.all fun p => held.any fun x => x.1 = p then
      let top := held.foldl (fun m x => later m x.2.2) r.arrival + nsUnits b.lead
      let top := if b.scope = 2 then later top (r.tlaunch + BitVec.ofNat 64 ((r.exp + 1) * b.pitch * 65536)) else top
      some (s.deferRelease tenant b top)
    else none

/-! The beat of a region. -/

/-- The neighbours of a region (R19). -/
def neighbours (r : Nat) : List Nat :=
  let d := r / 4
  let k := r % 4
  (if 0 < k then [r - 1] else []) ++ (if k < 3 then [r + 1] else []) ++ [(1 - d) * 4 + k]

/-- R44: no neighbour lags so that region r may not begin its next beat. -/
def State.tethered (s : State) (r : Nat) : Bool :=
  (neighbours r).any fun n => (s.region n).beat + 1 < (s.region r).beat

/-- A tenant's run is in an exposure whose beats a region counts; every region of the package counts them
(R42), whether or not it holds a cluster of the run. -/
def Tenant.beating (t : Tenant) (region : Nat) : Bool :=
  match t.run with
  | some r => t.st = .running && r.phase = .inExposure && !r.done.contains region && 0 < Tab.get 0 r.beats region
  | none => false

/-- The runs whose beats a region counts. -/
def State.beating (s : State) (region : Nat) : List Nat :=
  (s.tenants.filter fun e => e.2.beating region).map (·.1)

/-- The plate beat in progress of a tenant in a region; none where its run is not counting beats. -/
def State.plateBeat (s : State) (tenant region : Nat) : Option Nat :=
  let t := s.tenant tenant
  match t.run with
  | some r => if t.beating region then some (Tab.get 0 r.beats region - 1) else none
  | none => none

/-- The region of a die link's station (R22). -/
def linkRegion (die link : Nat) : Nat := die * 4 + if link < 12 then 0 else 3

/-- The plate beat in progress of a run that is not halting on it (R448). -/
def State.liveBeat (s : State) (tenant region : Nat) : Option Nat :=
  match s.plateBeat tenant region, (s.tenant tenant).run with
  | some b, some r =>
    match r.halting with
    | some x => if b < x.h then some b else none
    | none => some b
  | _, _ => none

/-- A router of the region has entries that name inputs on the beat in progress and has not followed them. -/
def State.unswitched (s : State) (region : Nat) : Bool :=
  s.routers.any fun e => regionKey (e.1 / 24) (e.1 % 24) = region && (List.range 16).any fun n =>
    let c := s.partition (e.1 / 24) (e.1 % 24) n
    match s.liveBeat c.tenant region with
    | some b => c.valid && !(c.named e.2 b).isEmpty && Tab.get 0 e.2.switched c.tenant ≠ b + 1
    | none => false

/-- The low 16 bits of a FLAGOP's BEAT are at least 48 beats in the past (R50, R252). -/
def flagDueAt (beat sent : Nat) : Bool :=
  let d := (beat + 65536 - sent % 65536) % 65536
  48 ≤ d && d < 32768

/-- A barrier with a member in the region has its release on the beat in progress and has not been released (R230). -/
def State.released (s : State) (region : Nat) : Bool :=
  s.barriers.any fun x => x.complete && x.scope ≠ 2 && (x.members.any fun k => regionKey (k / 24) (k % 24) = region) &&
    match s.liveBeat x.tenant region with
    | some b => decide (x.last + barrierDelay x.scope ≤ b)
    | none => false

/-- The entries a link station has to consume for the router beat `ahead` beats from now (R50, R196): the tenants whose
partition names the link's EDGE input on that beat, within the exposure, with no flit there yet. -/
def State.edgeDue (s : State) (die link ahead : Nat) : List (Nat × Nat) :=
  let p := stationPhys link
  let lane := 5 + link % 2
  let r := s.router die p
  (List.range 16).filterMap fun n =>
    let c := s.partition die p n
    match s.liveBeat c.tenant (linkRegion die link), (s.tenant c.tenant).run with
    | some b, some x =>
      if c.valid && b + ahead < (x.exp + 1) * s.explenOf c.tenant && ((c.named r (b + ahead)).any fun y => y.2 = lane) &&
          !r.flits.any fun f => f.lane = lane && f.beat = b + ahead && f.flit.tenant = c.tenant
      then some (c.tenant, b + ahead) else none
    | _, _ => none

/-- What has to happen on the beat in progress before the region can end it (notes/assumptions/19.md):
barriers to release, scheduled flits to switch, entries to follow, link entries to consume, remote flag operations to apply, waits
to complete or expire. -/
def State.duties (s : State) (region : Nat) : Bool :=
  let due := fun (tenant beat : Nat) => match s.liveBeat tenant region with
    | some b => decide (beat ≤ b)
    | none => false
  !(s.region region).ended && (s.unswitched region || s.released region ||
  (s.routers.any fun e => regionKey (e.1 / 24) (e.1 % 24) = region &&
    e.2.flits.any fun f => due f.flit.tenant f.beat) ||
  (s.links.any fun e => linkRegion (e.1 / 24) (e.1 % 24) = region &&
    (((s.edgeDue (e.1 / 24) (e.1 % 24) 2).any fun x => e.2.rxSched.any fun f => f.tenant = x.1) || e.2.rxSync.any fun y => match y with
      | .flagop t _ beat _ _ _ _ => (match s.liveBeat t region with
        | some b => flagDueAt b beat
        | none => false)
      | _ => false)) ||
  (s.clusters.any fun e => regionKey (e.1 / 24) (e.1 % 24) = region &&
    ((e.2.flagMsgs.any fun m => !m.loc && m.due ≠ 0 && due m.tenant m.due) ||
     e.2.ctxs.any fun k => match k.2.wait with
       | some w => k.2.valid && match s.liveBeat k.2.tenant region with
         | some b => w.expires b || (w.latch && if w.opened then decide (b = w.issued + w.timeout) else true)
         | none => false
       | none => false)))

/-- An entry that a link station has to consume on the next beat has not arrived (R50). -/
def State.entryMissing (s : State) (region : Nat) : Bool :=
  s.routers.any fun e =>
    let die := e.1 / 24
    let p := e.1 % 24
    regionKey die p = region && (p < 6 || 18 ≤ p) && [5, 6].any fun lane =>
      let link := edgeLink p lane
      (s.edgeDue die link 3).any fun x => !(s.link die link).rxSched.any fun f => f.tenant = x.1

/-- A link of the region waits for its peer (R50): an entry has not arrived, or a package this one exchanges
scheduled traffic with has not reported the plate beat 48 before the next. -/
def State.linkHeld (s : State) (region : Nat) : Bool :=
  s.entryMissing region ||
  s.links.any fun e => linkRegion (e.1 / 24) (e.1 % 24) = region && e.2.st = .up &&
    e.2.peerBeat.any fun p => match s.plateBeat p.1 region with
      | some b => decide (p.2 + 48 < b + 1)
      | none => false

/-- The gates whose beat G a region would begin next. -/
def State.gatesNext (s : State) (region : Nat) : List Nat :=
  (s.tenants.filter fun e => match e.2.run with
    | some r => match r.gate with
      | some g => g.g = (s.region region).beat + 1 && !g.begun.contains region
      | none => false
    | none => false).map (·.1)

/-! The end of a beat. -/

/-- Apply the parameter writes due at the end of a beat: a kind 11 value stands against a scalar store of
the same beat, and each such meeting is counted (R163, R165). -/
def Ctx.commitParams (k : Ctx) (beat : Nat) : Ctx × Nat :=
  let now := k.pwrites.filter fun w => w.due ≤ beat
  let put := fun (ps : Tab Word) (w : PWrite) =>
    Tab.set 0 ps w.reg ((Tab.get 0 ps w.reg &&& ~~~w.mask) ||| (w.value &&& w.mask))
  let scalar := now.filter fun w => !w.update
  let upd := now.filter fun w => w.update
  let hit := (scalar.map (·.reg)).eraseDups.countP fun r => upd.any fun w => w.reg = r
  let kept := scalar.filter fun w => !upd.any fun u => u.reg = w.reg
  ({ k with params := upd.foldl put (kept.foldl put k.params),
            pwrites := k.pwrites.filter fun w => !(w.due ≤ beat), pcoll := satAdd k.pcoll hit }, hit)

/-- What the sync node notes of a wait at the end of a beat (R223, R224). -/
def Wait.note (w : Wait) (now : Bool) (beat : Nat) : Wait :=
  if w.opened then { w with latch := w.latch || (now && beat < w.issued + w.timeout) } else { w with latch := now }

/-- The end of plate beat `beat` in a context: parameters, the wait, and the line position past a slot line
whose last beat this was (R151, R153). -/
def Cluster.endBeat (c : Cluster) (n beat : Nat) : Cluster × Nat :=
  let (k, hits) := (c.ctx n).commitParams beat
  let k := match k.wait with
    | some w =>
      let now := match c.flagIn k.tenant w.flag with
        | some p => w.holds (c.flag p)
        | none => false
      { k with wait := some (w.note now beat), held := satAdd k.held 1 }
    | none =>
      let h := c.lineHeader k k.word
      if !k.ended && h % 4096 ≠ 0 && beat = k.lineAt + h / 65536 then k.nextLine c (beat + 1) else k
  (c.setCtx n k, hits)

/-- Host writes into data windows commit at the end of a beat on which the kind 6 port of the data SRAM is
idle, after the scalar core's (R175, R176). -/
def Cluster.commitHost (c : Cluster) (beat : Nat) : Cluster :=
  if c.dport.any fun u => u.1 ≤ beat && beat ≤ u.2 then c
  else { c with dsram := c.dwin.foldl (fun m w => Tab.setRun 0 m w.1 w.2) c.dsram, dwin := [] }

/-- End a run's beat in one context: results land, parameters, the wait and the line follow, and the slots under way
read for the next beat. A context of a halting run commits nothing from beat h on (R448). -/
def State.endContext (s : State) (a : Issue) (tenant : Nat) (region : Nat) : State :=
  match s.liveBeat tenant region, (s.tenant tenant).run with
  | some b, some r =>
    let s := s.landDue a { tenant := tenant, beat := b }
    let (c, hits) := (s.cluster a.die a.phys).endBeat a.ctx b
    let s := (s.setCluster a.die a.phys c).summarise tenant fun m => { m with pcoll := satAdd m.pcoll hits }
    s.endWork a { tenant := tenant, beat := b } (decide (b + 1 = (r.exp + 1) * s.explenOf tenant))
  | _, _ => s

/-- End the beat in progress in a region's clusters: flags and unscheduled writes in each, then each context whose run counts beats here, then
host writes (R176). -/
def State.endBeat (s : State) (region : Nat) : State :=
  let here := s.clusters.filter fun e => regionKey (e.1 / 24) (e.1 % 24) = region
  here.foldl (fun s e =>
    let die := e.1 / 24
    let p := e.1 % 24
    let s := (s.modCluster die p fun c => c.applyFlags (s.flagDue region)).commitLanding die p
    let s := (s.cluster die p).ctxs.foldl (fun s k =>
      if k.2.valid then s.endContext { die := die, phys := p, ctx := k.1 } k.2.tenant region else s) s
    s.modCluster die p fun c => c.commitHost (s.region region).beat) s

/-- A run begins no further beat in a region after the one in progress: beat h of a halt follows, or the exposure's last
beat has come (R47, R448). -/
def Run.last (r : Run) (explen region : Nat) : Bool :=
  let n := Tab.get 0 r.beats region
  (match r.halting with
    | some x => decide (x.h ≤ n)
    | none => false) || n = (r.exp + 1) * explen

/-- A run's beat ends in a region, and with the last one its part there. -/
def Run.finish (r : Run) (explen region : Nat) : Run :=
  if r.last explen region then { r with done := region :: r.done } else r

/-- A run begins its next beat in a region, or ends there. -/
def Run.next (r : Run) (explen region : Nat) : Run :=
  if r.last explen region then { r with done := region :: r.done }
  else { r with beats := Tab.modify 0 r.beats region (· + 1) }

/-- Ports used only on beats that have ended. -/
def Cluster.prunePorts (c : Cluster) (beat : Nat) : Cluster :=
  { c with ports := c.ports.filter fun u => beat ≤ u.last, dport := c.dport.filter fun u => beat ≤ u.2 }

/-- Change the runs of tenants in one region and settle their halts. -/
def State.passRuns (s : State) (region : Nat) (ts : List Nat) (f : Run → Nat → Nat → Run) : State :=
  let s := ts.foldl (fun s t => s.modRun t fun r => f r (s.explenOf t) region) s
  ts.foldl (fun s t => s.settleHalt t) s

/-- The beat in progress in a region is over, whatever the next period brings (R47, R48). -/
def State.finishBeat (s : State) (region : Nat) : State :=
  if (s.region region).ended then s
  else
    let ts := s.beating region
    let s := s.endBeat region
    (s.setRegion region { s.region region with ended := true }).passRuns region ts Run.finish

/-- The region begins its next beat. -/
def State.startBeat (s : State) (region : Nat) : State :=
  let beat := (s.region region).beat + 1
  let s := s.setRegion region { s.region region with beat := beat, holdFrom := none, ended := false }
  let prune := fun (e : Nat × Cluster) =>
    if regionKey (e.1 / 24) (e.1 % 24) = region then (e.1, e.2.prunePorts beat) else e
  let s := { s with clusters := s.clusters.map prune }
  let s := s.passRuns region (s.beating region) Run.next
  if beat % 16 < s.power.duty then s.stretch region else s

/-- End the beat in progress and count the region's next one. -/
def State.nextBeat (s : State) (region : Nat) : State := (s.finishBeat region).startBeat region

/-- R45, R411: the breach halts every plate and is recorded; the keeper aligns the regions again, and the
third breach restarts First Light. -/
def State.breach (s : State) (region other : Nat) : State :=
  let die := region / 4
  let runs := s.runningTenants
  let beat := (s.region region).beat
  let f := s.flt 0
  let s := s.setFlt 0 { f with breaches := f.breaches + 1 }
  let s := s.record die 3 0x30 none 0x1F 0
    (BitVec.ofNat 64 (region + other * 8 + beat % 4294967296 * 64)) true
  let s := s.noteRecord die runs
  let s := runs.foldl (fun s t => s.haltRun t (s.beatNow t) .fault (s.fseq die) true) s
  let top := s.regions.foldl (fun m e => if m < e.2.beat then e.2.beat else m) 0
  let s := (List.range 8).foldl (fun s r => s.setRegion r { s.region r with beat := top }) s
  if 2 ≤ f.breaches then s.restart else s

/-- A neighbour from which a region differs by 3 beats or more (R45). -/
def State.torn (s : State) (region : Nat) : Option Nat :=
  (neighbours region).find? fun n =>
    (s.region n).beat + 3 ≤ (s.region region).beat || (s.region region).beat + 3 ≤ (s.region n).beat

/-- A period on a tether or link hold, counted in the region by `bump`; at an exposure boundary it is boundary time (R47). -/
def State.holdPeriod (s : State) (region : Nat) (bump : Region → Region) : State :=
  if s.atBoundary region then s
  else (s.setRegion region (bump (s.region region))).modRunsIn region fun r => { r with hold := satAdd r.hold 1 }

/-! The present time, and overruns (R52, R317). -/

/-- The present time is seen between two edges of the 25 MHz clock: how far past the last one, in 1/64 of the period, is a
free value that never falls before the next edge (R52, notes/assumptions/116.md). -/
def State.interpolate (s : State) : State :=
  let p := (Config.freeWord s.fresh).toNat % 64
  { s with clock := { s.clock with phase := if s.clock.phase < p then p else s.clock.phase }, fresh := s.fresh + 1 }

/-- The time of an event, interpolated (R52). -/
def State.now (s : State) : DWord := s.clock.sid + BitVec.ofNat 64 (s.clock.incr.toNat * s.clock.phase / 64)

/-- The owner of a logical cluster in a slot; none for 0xFFFF. -/
def Sched.ownerOf (x : Sched) (slot die l : Nat) : Option Nat :=
  let t := Tab.get 0xFFFF x.owner (slot * 48 + die * 24 + l)
  if t = 0xFFFF then none else some t

/-- A tenant's run is in an exposure. -/
def State.exposing (s : State) (tenant : Nat) : Bool :=
  let t := s.tenant tenant
  t.st = .running && match t.run with
    | some r => r.phase = .inExposure
    | none => false

/-- Switch one cluster to its owner's context; an exposure that has not ended is never cut (R314, R317). -/
def State.switchCluster (s : State) (x : Sched) (slot die l : Nat) : State :=
  match s.physOf die l with
  | none => s
  | some p =>
    let c := s.cluster die p
    let now := c.running.map fun k => (c.ctx k).tenant
    let next := x.ownerOf slot die l
    let busy := match now with
      | some t => s.exposing t
      | none => false
    if now = next || busy then s
    else
      match next with
      | some t => s.setCluster die p { c.giveTo t with running := c.ctxOf t }
      | none => s.setCluster die p { c with running := none }

/-- Switch every cluster whose owner in a slot is not the one it runs (R314). -/
def State.switchAll (s : State) (x : Sched) (slot : Nat) : State :=
  (List.range 48).foldl (fun s n => s.switchCluster x slot (n / 24) (n % 24)) s

/-- Clusters kept by an exposure that overran its slot are switched once it has ended (R317). -/
def State.catchUp (s : State) : State :=
  match s.schedule with
  | some x => if reached s.clock.sid x.s0 then s.switchAll x s.slotNow else s
  | none => s

/-- A rotating tenant's clusters run its contexts (R314). -/
def State.switchedTo (s : State) (tenant : Nat) : Bool :=
  match (s.tenant tenant).binding with
  | some b => !b.rotating || b.sites.all fun x => (s.cluster x.die x.phys).running = some x.ctx
  | none => true

/-- The release time of a tenant's gate has come. -/
def State.gateOpen (s : State) (tenant : Nat) : Bool :=
  match (s.tenant tenant).run with
  | some r => match r.gate with
    | some g => match g.s with
      | some at_ => reached s.now at_
      | none => false
    | none => false
  | none => false

/-- A gate that is open but waits for its tenant's clusters makes a late boundary, counted once (R317). -/
def State.noteOverrun (s : State) (tenant : Nat) : State :=
  if s.gateOpen tenant && !s.switchedTo tenant then
    s.modRun tenant fun r => match r.gate with
      | some g => if g.late then r else { r with gate := some { g with late := true }, late := satAdd r.late 1 }
      | none => r
  else s

/-- What a region that has ended its beat does with the next period: a tether, link or gate hold, or its next beat
(R43, R44, R50, R233). -/
def State.takePeriod (s : State) (region : Nat) : State :=
  if s.tethered region then s.holdPeriod region fun x => { x with holds := x.holds + 1 }
  else if s.linkHeld region then s.holdPeriod region fun x => { x with lholds := x.lholds + 1 }
  else if !(s.gatesNext region).isEmpty then
    let x := s.region region
    let s := s.setRegion region { x with gholds := x.gholds + 1, holdFrom := some (x.holdFrom.getD s.clock.sid) }
    (s.gatesNext region).foldl (fun s t => s.noteOverrun t) s.catchUp
  else s.startBeat region

/-- REGION_BEAT_BEGIN (R41, R43 to R45, R50, R233): the region ends its beat and begins its next one, or spends the period
on a tether, link or gate hold. `badTag` names the neighbour of a crossing entry whose tag is wrong; neighbours 3 beats
apart are a breach too. -/
def execRegionBeatBegin (region : Nat) (badTag : Option Nat) (s : State) : Host.Outcome State Fault Refusal :=
  done s (
    if !(region < 8 && s.clocked region) then s
    else
      match badTag.or (s.torn region) with
      | some n => s.breach region n
      | none => if s.duties region then s else (s.finishBeat region).takePeriod region)

/-! Gates (R232 to R235). -/

/-- The gate beat of R232; one more than the furthest region's beat where the formula gives less
(notes/assumptions/15.md). -/
def State.gateBeat (s : State) (smin : DWord) : Nat :=
  let span := smin - s.clock.sid
  let ahead := if reached smin s.clock.sid then span.toNat else 0
  let ns := ahead - 24 * 65536
  let g := (s.region 1).beat + ns * 17 / 20 / 65536
  if g ≤ s.topBeat then s.topBeat + 1 else g

/-- GATE_ANNOUNCE (R232): for a launch at T − 1,205 ns or later, once the package is Active; at a boundary at
arrival. -/
def execGateAnnounce (tenant : Nat) (s : State) : Host.Outcome State Fault Refusal :=
  done s (
    let t := s.tenant tenant
    match t.run, t.binding with
    | some r, some b =>
      if t.st ≠ .running || r.gate.isSome || r.halting.isSome || !s.clocked 1 || s.power.moving then s
      else
        match r.phase with
        | .waitLaunch =>
          if reached s.clock.sid (r.launch - nsUnits 1205) then
            let smin := r.launch
            let g : Gate :=
              { g := s.gateBeat smin, smin := smin, s := some smin, begun := [], late := false, charged := [] }
            s.modRun tenant fun r => { r with gate := some g }
          else s
        | .boundary =>
          let smin := s.earliest tenant b r.arrival
          let g : Gate := { g := s.gateBeat smin, smin := smin, s := s.release tenant b r, begun := [],
                            late := false, charged := [] }
          s.modRun tenant fun r => { r with gate := some g }
        | .inExposure => s
    | _, _ => s)

/-- Put the staged values of an exposure into the parameter registers (R166, R167). -/
def State.applyPatches (s : State) (tenant exp : Nat) : State :=
  let t := s.tenant tenant
  match t.binding with
  | none => s
  | some b =>
    let now := t.staged.filter fun x => x.1 = exp
    let s := s.setTenant tenant { t with staged := t.staged.filter fun x => x.1 ≠ exp }
    now.foldl (fun s x => x.2.foldl (fun s e =>
      match b.sites.find? fun x => x.cl = e.cl with
      | some x => s.modCluster x.die x.phys fun c =>
        let k := c.ctx x.ctx
        c.setCtx x.ctx { k with params := Tab.set 0 k.params e.reg e.value }
      | none => s) s) s

/-- A context at launch (R153, R157): line 0, every loop counter disarmed, nothing in flight. -/
def Ctx.launch (k : Ctx) : Ctx :=
  { k with word := 0, lineAt := 0, ended := false, armed := [], pwrites := [], jobs := [], commits := [], wait := none, recv := none }

/-- Apply a change to every context of a binding. -/
def State.modBound (s : State) (b : Binding) (f : Ctx → Ctx) : State :=
  b.sites.foldl (fun s x => s.modCluster x.die x.phys fun c => c.setCtx x.ctx (f (c.ctx x.ctx))) s

/-- A board barrier completed in the exposure that ended releases its flag at the boundary, before the next
exposure's first beat (R231). -/
def State.releaseBoard (s : State) (tenant : Nat) : State :=
  let ready := s.barriers.filter fun x => x.tenant = tenant && x.complete && x.scope = 2
  ready.foldl (fun s x =>
    let s := { s with barriers := s.barriers.map fun (y : Barrier) =>
      if y.tenant = x.tenant && y.number = x.number then { y with arrivedBy := [], last := 0, complete := false }
      else y }
    x.members.foldl (fun s k => s.modCluster (k / 24) (k % 24) fun c =>
      match c.flagIn tenant x.flag with
      | some p => c.setFlag p ((c.flag p).apply [.set])
      | none => c) s) s

/-- The marks of a new exposure: no bank, setup, table or index bank has been written in it (R86, R109, R148). -/
def Arr.fresh (x : Arr) : Arr :=
  { x with bank0 := { x.bank0 with valid := false }, bank1 := { x.bank1 with valid := false },
           cfg := x.cfg &&& 0xFF, tab := x.tab &&& 0xFFFFFFFE }

def Cluster.newExposure (c : Cluster) : Cluster := { c with a0 := c.a0.fresh, a1 := c.a1.fresh, xbv := 0 }

/-- The first region begins the gate beat: the exposure begins. At launch the contexts start and the run's
figures are taken; at a boundary the next exposure is counted in. -/
def State.beginExposure (s : State) (tenant : Nat) (b : Binding) (r : Run) (at_ : DWord) : State :=
  let s := b.sites.foldl (fun s x => s.modCluster x.die x.phys Cluster.newExposure) s
  match r.phase with
  | .waitLaunch =>
    let s := s.modBound b Ctx.launch
    let s := s.modRun tenant fun r =>
      { r with phase := .inExposure, exp := 0, tlaunch := at_, energy0 := s.power.energy,
               energyExp := s.power.energy, emerg := s.power.emergency,
               rated := r.rated && !s.power.emergency }
    s.applyPatches tenant 0
  | _ =>
    let s := s.modRun tenant fun r =>
      { r with phase := .inExposure, exp := r.exp + 1, stamps := r.stamps.filter fun x => r.exp < x.2.1 }
    (s.applyPatches tenant (r.exp + 1)).releaseBoard tenant

/-- Nanoseconds from y to x, saturating at the registers' limit. -/
def nsBetween (x y : DWord) : Nat := if reached x y then (x - y).toNat / 65536 else 0

/-- Length of the gate hold of a gate in ns for a region that has stood at it since `held`: it lasts until S (R235). -/
def Gate.holdLength (g : Gate) (held : Option DWord) : Nat :=
  match held with
  | some h => nsBetween (g.s.getD g.smin) h
  | none => 0

/-- Foreign gate time (R235): the longest hold of any region of a tenant in an exposure, for one gate. -/
def State.chargeForeign (s : State) (gated region : Nat) (held : Option DWord) : State :=
  (s.runsIn region).foldl (fun s t =>
    if t = gated then s
    else
      match (s.tenant gated).run with
      | none => s
      | some r =>
        match r.gate with
        | none => s
        | some g =>
          let hold := g.holdLength held
          let old := Tab.get 0 g.charged t
          if hold ≤ old then s
          else
            let s := s.modRun t fun x => { x with fgate := satAdd x.fgate (hold - old) }
            s.modRun gated fun x => { x with gate := some { g with charged := Tab.set 0 g.charged t hold } }) s

/-- One region begins the gate beat of a tenant's gate whose release time is S. -/
def State.passGate (s : State) (region tenant : Nat) (held : Option DWord) : State :=
  let t := s.tenant tenant
  match t.run, t.binding with
  | some r, some b =>
    match r.gate with
    | none => s
    | some g =>
      let at_ := g.s.getD g.smin
      let s := if g.begun.isEmpty then s.beginExposure tenant b r at_ else s
      let mine := b.regions.contains region
      let late := mine && held.isNone && laterThan s.now at_
      let before := b.regions.all g.begun.contains
      let begun := region :: g.begun
      let after := b.regions.all begun.contains
      let isLate := g.late || late
      let boundary := r.phase = .boundary || (r.phase = .inExposure && 0 < r.exp)
      let wait := nsBetween (if isLate then s.now else at_) r.arrival
      s.modRun tenant fun x =>
        { x with beats := Tab.modify 0 x.beats region (· + 1), done := x.done.filter (· ≠ region),
                 late := if late && !g.late then satAdd x.late 1 else x.late,
                 xwait := if after && !before && boundary then satAdd x.xwait wait else x.xwait,
                 gate := if begun.length < 8 then some { g with begun := begun, late := isLate } else none }
  | _, _ => s

/-- A region that has ended beat G − 1 begins beat G of the gates it stands at. -/
def State.startGates (s : State) (region : Nat) : State :=
  let gates := s.gatesNext region
  let held := (s.region region).holdFrom
  let s := gates.foldl (fun s t => s.chargeForeign t region held) s
  gates.foldl (fun s t => s.passGate region t held) (s.startBeat region)

/-- GATE_START (R233 to R235, R317): a region that has completed beat G − 1 begins beat G once the interpolated time
has reached the final release of every gate it stands at, and the clusters of their tenants have been switched. -/
def execGateStart (region tenant : Nat) (s : State) : Host.Outcome State Fault Refusal :=
  done s (
    if !(region < 8 && s.clocked region && (s.gatesNext region).contains tenant && !s.duties region &&
        !s.tethered region) then s
    else
      let s := (s.interpolate.finishBeat region).catchUp
      let gates := s.gatesNext region
      if gates.contains tenant && gates.all s.gateOpen && gates.all s.switchedTo then s.startGates region
      else gates.foldl (fun s t => s.noteOverrun t) s)

/-! Exposures (R47, R48) and the end of a run (R299). -/

/-- Nothing scheduled of a tenant is on its way on this package. -/
def State.quietFor (s : State) (tenant : Nat) : Bool :=
  !(s.routers.any fun e => e.2.flits.any fun f => f.flit.tenant = tenant) &&
    !(s.links.any fun e => e.2.rxSched.any fun x => x.tenant = tenant) 

/-- The package energy of the exposure that ends enters EMAX (R417). -/
def Run.closeExposure (r : Run) (energy : DWord) : Run :=
  let e := (energy - r.energyExp).toNat
  { r with exps := satAdd r.exps 1, energyExp := energy,
           emax := if r.emax < e then e else r.emax, emaxIdx := if r.emax < e then r.exp else r.emaxIdx }

/-- Every region of the run has ended the last beat of exposure k. -/
def Run.ended_ (r : Run) (b : Binding) : Bool :=
  b.regions.all fun g => r.done.contains g && Tab.get 0 r.beats g = (r.exp + 1) * b.explen

/-- EXPOSURE_ARRIVAL (R48): the package arrives and stamps the time; a board plate sends the stamp; a STOP of
MODE 1 takes effect (R308). -/
def execExposureArrival (tenant : Nat) (s : State) : Host.Outcome State Fault Refusal :=
  done s (
    let t := s.tenant tenant
    match t.run, t.binding with
    | some r, some b =>
      if t.st = .running && r.phase = .inExposure && r.gate.isNone && r.halting.isNone && r.exp + 1 < b.exps &&
          r.ended_ b && s.quietFor tenant then
        let s := s.interpolate
        let s := s.modRun tenant fun r =>
          { (r.closeExposure s.power.energy) with phase := .boundary, arrival := s.now }
        let s := if b.scope = 0 then s
          else (b.boardPeers s.slot s.boardIndex).foldl (fun s p =>
            s.sendSync p (.stamp tenant s.slot r.exp s.now)) s
        match r.stopAfter with
        | some x =>
          if x ≤ r.exp then
            let s := s.modRun tenant fun r => { r with stopped := true }
            s.haltRun tenant ((r.exp + 1) * b.explen) .ok 0 true
          else s
        | none => s
      else s
    | _, _ => s)

/-- STAMP_RECEIVE (R48, R49): the stamp is kept; with the last one the release is fixed, and one that lies
in the past already makes a late boundary. -/
def State.takeStamp (s : State) (tenant slot exp : Nat) (stamp : DWord) : State :=
  let t := s.tenant tenant
  match t.run, t.binding with
  | some r, some b =>
    if t.st ≠ .running || b.scope = 0 || exp < r.exp || !(b.boardPeers s.slot s.boardIndex).contains slot ||
        r.stamps.any fun x => x.1 = slot && x.2.1 = exp then s
    else
      let s := s.modRun tenant fun r => { r with stamps := r.stamps ++ [(slot, exp, stamp)] }
      match r.gate, (s.tenant tenant).run with
      | some g, some r' =>
        match g.s, s.release tenant b r' with
        | none, some at_ =>
          let late := laterThan s.clock.sid at_
          s.modRun tenant fun r =>
            { r with gate := some { g with s := some at_, late := late },
                     late := if late then satAdd r.late 1 else r.late }
        | _, _ => s
      | _, _ => s
  | _, _ => s

def execStampReceive (tenant slot exp : Nat) (stamp : DWord) (s : State) : Host.Outcome State Fault Refusal :=
  done s (s.takeStamp tenant slot exp stamp)

/-- RUN_COMPLETE (R299): all n × E beats have ended. -/
def execRunComplete (tenant : Nat) (s : State) : Host.Outcome State Fault Refusal :=
  done s (
    let t := s.tenant tenant
    match t.run, t.binding with
    | some r, some b =>
      if t.st = .running && r.phase = .inExposure && r.gate.isNone && r.halting.isNone && r.exp + 1 = b.exps &&
          r.ended_ b && s.quietFor tenant then
        let s := s.modRun tenant fun r => r.closeExposure s.power.energy
        (s.endRun tenant .ok 0 (b.exps * b.explen)).touch
      else s
    | _, _ => s)

/-! The sidereal counter and the board's time (R51 to R54, R58). -/

/-- What the sensors show as time goes on (R382): package power, the energy drawn meanwhile, the voltages of the rails
with OOL, and the temperatures. Each is a free value: DESIGN CHOICE, notes/assumptions/62.md. -/
def State.sense (s : State) : State :=
  let free := fun k => (Config.freeWord (s.fresh + k)).toNat
  let temps := (List.range 64).map fun k => (BitVec.ofNat 12 (free (14 + k))).toInt
  let old := temps.zip (Tab.getRun 0 s.power.peak 0 64)
  let peaks := old.map fun x => if x.2 < x.1 then x.1 else x.2
  let bits := fun t => BitVec.ofNat 32 (tempBits t)
  let hotter := fun (x y : Word) => if (y.setWidth 12).toInt < (x.setWidth 12).toInt then x else y
  let s := old.zipIdx.foldl (fun s x =>
    if x.1.2 < x.1.1 then s.note (dieSite (x.2 / 32)) (0x1080 + 4 * (x.2 % 32)) (bits x.1.2) (bits x.1.1) hotter else s) s
  { s with
    power := { s.power with
      now := free 0 % 65536, energy := s.power.energy + BitVec.ofNat 64 (free 1),
      mv := Tab.setRun 0 [] 0 ((List.range 12).map fun k => free (2 + k) % 4096),
      ool := Tab.setRun false [] 0 ((List.range 12).map fun k => decide (free (78 + k) % 2 = 1)),
      temp := Tab.setRun 0 [] 0 temps, peak := Tab.setRun 0 [] 0 peaks }
    fresh := s.fresh + 90 }

/-- SIDEREAL_COUNTER_ADVANCE (R52): in every state but Off. -/
def execSiderealCounterAdvance (s : State) : Host.Outcome State Fault Refusal :=
  done s (if s.power.st = .off then s
    else { s.sense with clock := { s.clock with sid := s.clock.sid + s.clock.incr.setWidth 64, phase := 0 } })

/-- Set LOCK and SYS_LOCK; a loss counts under cause 0x43 and unrates the board and system runs it meets
(R58, R416). -/
def State.setLocks (s : State) (lock sys : Bool) : State :=
  let lostL := s.clock.lock && !lock
  let lostS := s.clock.sysLock && !sys
  let s := { s with clock := { s.clock with lock := lock, sysLock := sys } }
  if !lostL && !lostS then s
  else
    let hit := s.runningTenants.filter fun t => match (s.tenant t).binding with
      | some b => (lostL && 1 ≤ b.scope) || (lostS && b.scope = 2)
      | none => false
    let s := hit.foldl (fun s t => s.modRun t fun r => { r with lockLoss := true, rated := false }) s
    let s := s.record 0 4 0x43 none 0x1F 0
      (BitVec.ofNat 64 ((if lostL then 1 else 0) + if lostS then 2 else 0)) false
    s.noteRecord 0 []

/-- The lowest slot of a list. -/
def lowest (xs : List Nat) : Option Nat :=
  xs.foldl (fun m x => match m with
    | some y => some (if x < y then x else y)
    | none => some x) none

/-- The leader of R54 from the roles of the listed packages that are reachable. -/
def chooseLeader (own ownRole : Nat) (reach : List PeerRole) : Option Nat :=
  let cands := fun (role : Nat) =>
    (if ownRole = role then [own] else []) ++ ((reach.filter fun p => p.role = role).map (·.slot))
  match lowest (cands 1) with
  | some x => some x
  | none => lowest (cands 0)

/-- What a package reads of the others: the bundles that each has UP, in place of what was read before (R54, R258). Where the
relay to some slot is another one now, the routes follow (R258). -/
def State.hear (s : State) (peers : List PeerRole) : State :=
  let up := peers.foldl (fun (t : Tab (List Nat)) p => Tab.insert t p.slot p.up) []
  let s' := { s with clock := { s.clock with farUp := up } }
  if (List.range 16).all fun x => s'.homeLink 0 x = s.homeLink 0 x && s'.homeLink 1 x = s.homeLink 1 x then s'
  else s'.rerouteBoth

/-- The link this package's counter is disciplined over: its timing link to the leader, or the link to the
relay (R255, R258). -/
def State.timingLink (s : State) : Option Nat :=
  match s.clock.leader with
  | none => none
  | some x =>
    if x = s.slot then none
    else match s.bundleLink x with
      | some k => some k
      | none => (s.relayTo x).bind s.bundleLink

/-- A follower that has no lock steps its counter to its timing link's peer, by the counters that came in training (R255). -/
def State.stepClock (s : State) : State :=
  match s.timingLink with
  | some k =>
    let d := (s.link (k / 24) (k % 24)).skew
    { s with clock := { s.clock with sid := s.clock.sid + d },
             links := s.links.map fun (e : Nat × Link) => (e.1, { e.2 with skew := e.2.skew - d }) }
  | none => s

/-- Take up a choice of leader (R54): a free-running package follows nobody; a change of leader drops LOCK
until the offset is within ±1 ns, and a leader has LOCK. -/
def State.follow (s : State) (peers : List PeerRole) : State :=
  let own := s.slot
  let listed := match s.board with
    | some b => peers.filter fun p => b.slots.contains p.slot && s.reaches p.slot
    | none => []
  let pick := if s.board.isNone || s.clock.role = 3 then none else chooseLeader own s.clock.role listed
  let lead := pick = some own
  let via := match pick with
    | some x => !lead && (s.bundleLink x).isNone
    | none => false
  let same := pick = s.clock.leader
  let lock := lead || (same && pick.isSome && s.clock.lock)
  let ptp := lead && s.clock.ptpLock
  let leaderPtp := match pick with
    | some x => if lead then ptp else listed.any fun p => p.slot = x && p.ptpLock
    | none => false
  let s' := { s with clock := { s.clock with leader := pick, via := via, ptpLock := ptp, leaderPtp := leaderPtp,
                                             conflict := s.clock.role = 1 && pick.isSome && !lead,
                                             lastFseq0 := if same then s.clock.lastFseq0 else s.clock.sid } }
  (if same || lead || s.clock.lock then s' else s'.stepClock).setLocks lock (lock && leaderPtp)

/-- LEADER_CHOICE (R54). -/
def execLeaderChoice (peers : List PeerRole) (s : State) : Host.Outcome State Fault Refusal :=
  done s (if s.power.st = .off then s else (s.hear peers).follow peers)

/-- LEADER_TIMEOUT (R54): no FSEQ 0 timestamp for 1 ms; the choice is made again without that package. -/
def execLeaderTimeout (peers : List PeerRole) (s : State) : Host.Outcome State Fault Refusal :=
  done s (
    match s.clock.leader with
    | some x =>
      if x ≠ s.slot && s.elapsed s.clock.lastFseq0 1000000 then (s.hear peers).follow (peers.filter fun p => p.slot ≠ x) else s
    | none => s)

/-- The leader runs PTP and takes a message of its half, its domain and its transport (R53, R272). -/
def State.takesPtp (s : State) (m : PtpMessage) : Bool :=
  let e := s.eth
  let half := if e.ptpHalf then 1 else 0
  s.clock.leader = some s.slot && s.clock.ptpEn && s.power.st ≠ .off && m.half = half && e.halfUp half &&
    m.domain = bitsOf e.ctl 3 7 && m.transport = bitsOf e.ctl 10 2

/-- The origin time of a Sync is known: a Delay_Req leaves, in the form ETH_CTL ONESTEP gives (R272). Each PTP timestamp is
interpolated and corrected for the port's delay. -/
def State.delayReq (s : State) (t1 : DWord) : State :=
  let s := s.interpolate
  { s with eth := { s.eth with ptpT1 := t1, ptpWaits := false,
                               ptpReq := some (s.now + Config.portDelay, s.eth.ctl.getLsbD 2) } }

/-- The leader disciplines its counter to the grandmaster; within ±24 ns of it, it has PTP_LOCK (R53). `offset` in
1/65,536 ns. -/
def State.disciplinePtp (s : State) (offset : Int) : State :=
  let ptp := decide (-1572864 ≤ offset) && decide (offset ≤ 1572864)
  let s := { s with clock := { s.clock with offset := BitVec.ofInt 32 offset, ptpLock := ptp, leaderPtp := ptp,
                                            incr := Config.disciplined s.clock.incr offset } }
  s.setLocks s.clock.lock (s.clock.lock && ptp)

/-- The offset that the four times of an exchange give: t1 and t2 of the Sync, t3 and t4 of the Delay_Req (R272). -/
def ptpOffset (t1 t2 t3 t4 : DWord) : Int := ((t2 - t1).toInt - (t4 - t3).toInt) / 2

/-- PTP_MESSAGE (R53, R272): a Sync is timed and its origin time taken from it or from its follow-up; then the Delay_Req
leaves, and its answer ends the exchange. -/
def execPtpMessage (offset : PtpMessage) (s : State) : Host.Outcome State Fault Refusal :=
  done s (
    if !s.takesPtp offset then s
    else
      match offset.kind with
      | .sync twoStep t1 =>
        let s := s.interpolate
        let s := { s with eth := { s.eth with ptpT2 := s.now - Config.portDelay, ptpWaits := twoStep, ptpReq := none } }
        if twoStep then s else s.delayReq t1
      | .followUp t1 => if s.eth.ptpWaits then s.delayReq t1 else s
      | .delayResp t4 =>
        match s.eth.ptpReq with
        | some (t3, _) =>
          let o := ptpOffset s.eth.ptpT1 s.eth.ptpT2 t3 t4
          ({ s with eth := { s.eth with ptpReq := none } }).disciplinePtp o
        | none => s)

end Sys2Proof.Machine
end

