-- ==== Sys2Proof/Machine/Net.lean ====
section
/-!
DEFINITION. The bulk network at work (R196 to R212): scheduled flits switched by the ephemeris, unscheduled
packets forwarded, delivered and answered, unscheduled accesses and the scrubber at the slices; and the transfers that the packets belong to (R287, R288,
R293).
-/

namespace Sys2Proof.Machine

/-! Scheduled flits (R196 to R202). -/

/-- A schedule violation found on a beat: input lane, output lane (0xF where none is concerned), kind of
R407, entry index. -/
structure Violation where
  lane : Nat
  out : Nat
  kind : Nat
  entry : Nat
  deriving DecidableEq, Repr

/-- The flits of a tenant at an input lane on a plate beat. -/
def Router.present (r : Router) (tenant beat lane : Nat) : List Flit :=
  (r.flits.filter fun f => f.flit.tenant = tenant && f.beat = beat && f.lane = lane).map (·.flit)

/-- A RECV of a tenant's context is open on a beat. -/
def Cluster.recvOpen (c : Cluster) (tenant beat : Nat) : Bool :=
  match c.ctxOf tenant with
  | some k => (match (c.ctx k).recv with
    | some x => decide (x.issued ≤ beat)
    | none => false)
  | none => false

/-- The violations of a partition on a plate beat (R202): collisions, unnamed flits, empty inputs named, and
flits for a LOC without RECV. -/
def violations (r : Router) (c : Cluster) (cfg : PartCfg) (beat : Nat) : List Violation :=
  let entry := (cfg.base + beat % cfg.period) % 4096
  let named := cfg.named r beat
  let n := fun (lane : Nat) => (r.present cfg.tenant beat lane).length
  ((List.range 10).filterMap fun lane =>
    if 2 ≤ n lane then some { lane := lane, out := 0xF, kind := 3, entry := entry }
    else if n lane = 1 && !(named.any fun x => x.2 = lane) then
      some { lane := lane, out := 0xF, kind := 0, entry := entry }
    else none) ++
  named.filterMap fun x =>
    if n x.2 = 0 then some { lane := x.2, out := x.1, kind := 1, entry := entry }
    else if n x.2 = 1 && x.1 = 0 && !c.recvOpen cfg.tenant beat then
      some { lane := x.2, out := 0, kind := 2, entry := entry }
    else none

/-- DETAIL of cause 0x11 (R407). -/
def Violation.detail (v : Violation) (part : Nat) (parity : Bool) : DWord :=
  BitVec.ofNat 64 (v.lane + v.out * 16 + part * 256 + v.kind * 4096 + (if parity then 16384 else 0) + v.entry * 32768)

/-- The egress buffer of the Ethernet station holds 4 MiB (R292). -/
def egressFlits : Nat := 16384

/-- Data flits a descriptor announces (R291). -/
def descFlits (data : List Byte) : Nat := leNat ((data.drop 6).take 2)

/-- A flit reaches the Ethernet station: a descriptor opens a message; a flit that finds the buffer full is
discarded with the rest of its message, counted in ETH_PDROP (R291, R292). -/
def State.egressTake (s : State) (f : Flit) : State :=
  let e := s.eth
  let (left, has, dropping) := Tab.get (0, 0, false) e.asm f.tenant
  let after := if left = 0 then descFlits f.data else left - 1
  let dropping := left ≠ 0 && dropping
  let has := if left = 0 then 0 else has
  let asm := fun (n : Nat) (d : Bool) =>
    Tab.set (0, 0, false) e.asm f.tenant (if after = 0 then (0, 0, false) else (after, n, d))
  if dropping then { s with eth := { e with asm := asm 0 true } }
  else if egressFlits ≤ e.egress.length then
    let mine := e.egress.filter fun x => x.tenant = f.tenant
    let rest := e.egress.filter fun x => x.tenant ≠ f.tenant
    ({ s with eth := { e with egress := rest ++ mine.take (mine.length - has), asm := asm 0 true } }).countEth 6 1
  else { s with eth := { e with egress := e.egress ++ [f], asm := asm (has + 1) false } }

/-- A flit switched to an output lane on a beat goes where R196 says. -/
def State.deliver (s : State) (die phys beat lane : Nat) (f : Flit) : State :=
  if lane = 0 then
    match (s.cluster die phys).ctxOf f.tenant with
    | some k => s.takeFlit die phys k beat f.data
    | none => s
  else if lane = 5 || lane = 6 then
    if isEthRouter die phys then s.egressTake f
    else
      let link := edgeLink phys lane
      let l := s.link die link
      s.setLink die link { l with txFlits := l.txFlits ++ [(beat + 2, f)] }
  else
    match laneNext die phys lane with
    | some (d, p, i) =>
      let r := s.router d p
      s.setRouter d p { r with flits := r.flits ++ [{ lane := i, beat := beat + laneCost lane, flit := f }] }
    | none => s

/-- A partition's entry is followed on a plate beat: every flit of the tenant present is taken, and switched to
the outputs that name its input; violations discard them and halt the plate on that beat (R202). -/
def State.switchPart (s : State) (die phys n : Nat) (cfg : PartCfg) (beat : Nat) (parity : Bool) : State :=
  let r := s.router die phys
  let bad := violations r (s.cluster die phys) cfg beat
  let named := cfg.named r beat
  let mine := fun (f : FlitAt) => f.flit.tenant = cfg.tenant && f.beat ≤ beat
  let r' := { r with flits := r.flits.filter fun f => !mine f,
                     switched := Tab.set 0 r.switched cfg.tenant (beat + 1),
                     parity := if parity then Tab.modify 0 r.parity cfg.tenant (· + 1) else r.parity }
  let s := s.setRouter die phys r'
  if bad.isEmpty then
    let moves := named.filterMap fun x => (r.present cfg.tenant beat x.2).head?.map fun f => (x.1, f)
    let s := s.addSflit die phys moves.length
    moves.foldl (fun s m => s.deliver die phys beat m.1 m.2) s
  else
    let s := s.countBnet die phys 0x20 bad.length
    bad.foldl (fun s v =>
      s.faultHalt die 1 0x11 cfg.tenant phys beat (v.detail n parity) .fault) s

/-- EPHEMERIS_SWITCH (R196 to R199, R202): every partition whose tenant's plate is executing in the router's
region follows its entry of the beat in progress, once. A router out of service passes nothing (R212).
`parityError` reports an entry parity error found on the way. -/
def execEphemerisSwitch (die phys : Nat) (parityError : Bool) (s : State) : Host.Outcome State Fault Refusal :=
  done s (
    if 2 ≤ die || 24 ≤ phys || s.routerOut die phys then s
    else
      (List.range 16).foldl (fun s n =>
        let cfg := s.partition die phys n
        match s.liveBeat cfg.tenant (regionKey die phys) with
        | some b =>
          if cfg.valid && Tab.get 0 (s.router die phys).switched cfg.tenant ≠ b + 1 then
            s.switchPart die phys n cfg b parityError
          else s
        | none => s) s)

/-- Whether the readback of a partition on a die finds an entry that differs from what the loader wrote
(R412). -/
def State.readbackDiffers (s : State) (die part : Nat) : Bool :=
  (List.range 24).any fun p =>
    let cfg := s.partition die p part
    let r := s.router die p
    cfg.valid && (List.range cfg.period).any fun j =>
      r.entry ((cfg.base + j) % 4096) ≠ Tab.get 0xFFFFFFFFFF r.written ((cfg.base + j) % 4096)

/-- SCHED_ORIGIN_CHECK (R412): `seq` names the 0x11 record; `complete` says that the readback completed,
`differs` that an entry read back differs, `strayBeat` that a flit arrived on a beat no route record gives. The
ROUTER finding is followed by ROUTER_OUT with trigger 0x3. -/
def execSchedOriginCheck (die seq : Nat) (complete differs strayBeat : Bool) (s : State) :
    Host.Outcome State Fault Refusal :=
  done s (
    let ring := (s.flt die).ring
    match ring.find? fun r => r.seq = seq && r.cause = 0x11 with
    | none => s
    | some r =>
      if ring.any fun x => x.cause = 0x12 && x.detail.toNat % 4294967296 = seq then s
      else
        let part := r.detail.toNat / 256 % 16
        let timely := complete && !s.elapsed r.sid 10000000
        let router := differs || strayBeat || r.detail.getLsbD 14 || s.readbackDiffers die part
        let origin := if !timely then 3 else if router then 2 else 1
        let s := s.record die (if origin = 2 then 2 else 1) 0x12 r.tenant r.phys 0
          (BitVec.ofNat 64 (seq + origin * 4294967296)) false
        if origin = 2 then s.noteRecord die r.tenant.toList else s)

/-! Unscheduled packets (R205 to R211). -/

/-- The table entry that routes a packet at a router: OUT in bits [3:0], DETOUR in bit 4. -/
def State.routeOf (s : State) (die phys : Nat) (p : Packet) : Nat :=
  (Tab.get (15 : BitVec 5) (s.router die phys).rt (p.ep * 128 + s.destKey die p)).toNat

/-- An answer whose source is a station of this router ends here (R203, R204). -/
def State.endsHere (s : State) (die phys : Nat) (p : Packet) : Bool :=
  isResponse p && p.spkg = s.slot && p.sdie = die && 24 ≤ p.srcid && p.srcid ≤ 40 && srcPhys p.srcid = phys

/-- Whether a packet is answered here instead of being switched (R211, R212): an unreachable key or one whose entry names a
lane that is not there, the LOC of an occulted cluster or of one the packet was not decoded to at its first router (R27),
an output toward a router out of service. -/
def State.answeredHere (s : State) (die phys : Nat) (b : Buffered) : Bool :=
  let out := s.routeOf die phys b.pkt % 16
  let lane := portLane out b.pkt.vc
  if s.endsHere die phys b.pkt then false
  else if !lanePresent die phys lane then true
  else if out = 0 then s.pstate die phys = 3 || (!isResponse b.pkt && b.phys ≠ phys)
  else
    match laneNext die phys lane with
    | some (d, q, _) => s.routerOut d q
    | none => false

/-- The oldest packet of each input lane and sub-channel. -/
def Router.heads (r : Router) : List Buffered :=
  r.bufs.foldl (fun hs b => if hs.any fun h => h.lane = b.lane && h.sub = b.sub then hs else hs ++ [b]) []

/-- The output lane a packet wants at a router; 0xF where it is unreachable. -/
def State.wants (s : State) (die phys : Nat) (p : Packet) : Nat :=
  let out := s.routeOf die phys p % 16
  if out = 0xF then 0xF else portLane out p.vc

/-- The sub-channel a packet takes at the next router (R205, R208): detour from an entry with DETOUR on,
after-bridge once a bridge is crossed. -/
def nextSub (entry lane sub : Nat) : Nat :=
  let k := if 16 ≤ entry then 2 else if 7 ≤ lane && lane ≤ 9 && sub % 3 = 0 then 1 else sub % 3
  sub / 3 * 3 + k

/-- An active partition switches an input to an output lane on the beat in progress (R199, R206): an entry that names an input
outside the partition's grant leaves the lane idle, one whose flit fails to come does not. -/
def State.laneBusy (s : State) (die phys lane : Nat) : Bool :=
  (List.range 16).any fun n =>
    let cfg := s.partition die phys n
    match s.liveBeat cfg.tenant (regionKey die phys) with
    | some b => (cfg.feeds (s.router die phys) b lane).isSome
    | none => false

/-- Whether the next buffer has room for a packet (R205). -/
def State.credit (s : State) (die phys lane : Nat) (b : Buffered) : Bool :=
  match laneNext die phys lane with
  | some (d, q, i) => (s.router d q).room i (nextSub (s.routeOf die phys b.pkt) lane b.sub)
  | none => true

/-- The first of the candidates in turn after a position (R206). -/
def afterTurn (f : Buffered → Nat) (pos : Nat) (xs : List Buffered) : Option Buffered :=
  let least := fun (ys : List Buffered) => ys.foldl (fun (m : Option Buffered) y => match m with
    | some x => if f y < f x then some y else m
    | none => some y) none
  match least (xs.filter fun x => pos ≤ f x) with
  | some x => some x
  | none => least xs

/-- Take one buffered packet out of a router; one of the old epoch marks the router's beat (R209). -/
def State.unbuffer (s : State) (die phys : Nat) (b : Buffered) : State :=
  let r := s.router die phys
  let old := b.pkt.ep ≠ epochBit (s.dieOf die).epoch
  s.setRouter die phys
    { r with bufs := r.bufs.erase b, quiet := if old then (s.regionOf die phys).beat else r.quiet }

/-- Where a source stands among those a trailing packet is ordered behind (R207). -/
def sourceKey (p : Packet) : Nat := p.spkg * 128 + p.sdie * 64 + p.srcid

/-- A packet reaches the port of its destination (R207): a FENCE is counted, a trailing packet held. -/
def Router.port (r : Router) (b : Buffered) : Router :=
  if b.pkt.op = 5 then { r with fences := r.fences ++ [(sourceKey b.pkt, b.pkt.vc)] }
  else if b.pkt.trl then { r with trailing := r.trailing ++ [b] }
  else { r with arrived := r.arrived ++ [b] }

/-- The link of a station on which a packet for a slot leaves: the home link where it is the station's, else
one of the station's links that has just left UP, on which it waits (R258, R267). -/
def State.linkFor (s : State) (die phys slot : Nat) : Option Nat :=
  let two := [edgeLink phys 5, edgeLink phys 6]
  match s.homeLink die slot with
  | some k => if two.any fun l => die * 24 + l = k then some (k % 24)
              else two.find? fun l => (s.link die l).leftAt.isSome
  | none => two.find? fun l => (s.link die l).leftAt.isSome

/-- A packet that came over a link would cross a third one: it may leave only to its destination's package (R259). -/
def State.thirdLink (s : State) (l : Link) (p : Packet) : Bool :=
  (if isResponse p then addrSlot p.daddr else p.spkg) ≠ s.slot && l.peerSlot ≠ destSlot p

/-- Move a packet through an output lane. -/
def State.forward (s : State) (die phys lane : Nat) (b : Buffered) : State :=
  let entry := s.routeOf die phys b.pkt
  let s := (s.unbuffer die phys b).countBnet die phys 0x24 1
  if s.endsHere die phys b.pkt then
    let r := s.router die phys
    s.setRouter die phys { r with arrived := r.arrived ++ [b] }
  else if lane = 0 then s.setRouter die phys ((s.router die phys).port b)
  else if lane = 5 || lane = 6 then
    if isEthRouter die phys then
      let r := s.router die phys
      s.setRouter die phys { r with arrived := r.arrived ++ [b] }
    else
      match s.linkFor die phys (destSlot b.pkt) with
      | some k =>
        let l := s.link die k
        if s.thirdLink l b.pkt then s.faultAnswer die phys b.lane b.pkt
        else s.setLink die k { l with txPackets := l.txPackets ++ [b.pkt] }
      | none => s.faultAnswer die phys b.lane b.pkt
  else
    match laneNext die phys lane with
    | some (d, q, i) =>
      let sub := nextSub entry lane b.sub
      if d = die then
        let r := s.router d q
        s.setRouter d q { r with bufs := r.bufs ++ [{ b with lane := i, sub := sub }] }
      else s.enter d q i sub (24 + phys / 6) b.phys b.pkt
    | none => s.faultAnswer die phys b.lane b.pkt

/-- Count a beat on which an unscheduled flit waits for an idle lane (R216), once a beat of the router. -/
def State.countWait (s : State) (die phys : Nat) : State :=
  let r := s.router die phys
  let now := (s.regionOf die phys).beat + 1
  if r.waitedAt = now then s else (s.setRouter die phys { r with waitedAt := now }).countBnet die phys 0x28 1

/-- What follows the leaving of a packet from a router: its sources and its stations inject what has room now. -/
def State.pumpAround (s : State) (die phys : Nat) : State :=
  let s := (s.pumpRouter die phys).pumpEth
  if phys < 6 then (s.pumpLink die (2 * phys)).pumpLink die (2 * phys + 1)
  else if 18 ≤ phys then (s.pumpLink die (12 + 2 * (phys - 18))).pumpLink die (13 + 2 * (phys - 18))
  else s

/-- The packet an output lane takes of those that hold a credit: round robin among the channels and then among the inputs
(R206). -/
def Router.pick (r : Router) (lane : Nat) (ready : List Buffered) : Option Buffered :=
  match afterTurn (fun b => b.pkt.vc) (Tab.get 0 r.rrVc lane) ready with
  | none => none
  | some x => afterTurn (fun b => b.lane) (Tab.get 0 r.rrIn (lane * 4 + x.pkt.vc))
      (ready.filter fun b => b.pkt.vc = x.pkt.vc)

/-- UNSCHED_FORWARD (R205, R206, R211, R212): one packet leaves by an output lane on an idle beat, one packet a lane and beat,
round robin among channels and then inputs; 0xF stands for packets whose key is unreachable. A packet that is answered
instead is answered here. -/
def execUnschedForward (die phys lane : Nat) (s : State) : Host.Outcome State Fault Refusal :=
  done s (
    if 2 ≤ die || 24 ≤ phys || s.routerOut die phys then s
    else
      let r := s.router die phys
      let now := (s.regionOf die phys).beat + 1
      let mine := r.heads.filter fun b => s.wants die phys b.pkt = lane
      match mine.find? fun b => s.answeredHere die phys b with
      | some b => ((s.unbuffer die phys b).faultAnswer die phys b.lane b.pkt).pumpAround die phys
      | none =>
        if mine.isEmpty || Tab.get 0 r.sentAt lane = now then s
        else if s.laneBusy die phys lane then s.countWait die phys
        else
          match r.pick lane (mine.filter fun b => s.credit die phys lane b) with
          | none => s
          | some b =>
            let r' := { r with rrVc := Tab.set 0 r.rrVc lane (b.pkt.vc + 1),
                               rrIn := Tab.set 0 r.rrIn (lane * 4 + b.pkt.vc) (b.lane + 1),
                               sentAt := Tab.set 0 r.sentAt lane now }
            ((s.setRouter die phys r').forward die phys lane b).pumpAround die phys)

/-- TRAILING_RELEASE (R207): a trailing packet whose three FENCEs have come is delivered. -/
def execTrailingRelease (die phys : Nat) (s : State) : Host.Outcome State Fault Refusal :=
  done s (
    let r := s.router die phys
    let need := fun (b : Buffered) =>
      ((List.range 4).filter fun v => v ≠ b.pkt.vc).map fun v => (sourceKey b.pkt, v)
    match r.trailing.find? fun b => (need b).all r.fences.contains with
    | none => s
    | some b =>
      s.setRouter die phys
        { r with trailing := r.trailing.erase b, fences := (need b).foldl List.erase r.fences,
                 arrived := r.arrived ++ [b] })

/-! Ports on the beat in progress (R181). -/

/-- Whether a use takes its port on a beat. -/
def PortUse.on (u : PortUse) (beat : Nat) : Bool :=
  u.first ≤ beat && beat ≤ u.last && (beat - u.first) % u.step = 0

/-- A flit is switched to the LOC lane on the beat in progress, whose open RECV writes a slice (R179). -/
def State.recvHere (s : State) (die phys slice : Nat) : Bool :=
  s.laneBusy die phys 0 && (s.cluster die phys).ctxs.any fun e => match e.2.recv with
    | some x => decide (sliceOf x.base = slice)
    | none => false

/-- Whether a slice port is idle on the beat in progress, which has not ended: neither scheduled traffic uses it nor an unscheduled access of this
beat (R178, R181). -/
def State.portIdle (s : State) (die phys slice : Nat) (write : Bool) : Bool :=
  let beat := (s.regionOf die phys).beat
  let c := s.cluster die phys
  let x := c.slice slice
  !(s.regionOf die phys).ended && !(c.ports.any fun u => u.slice = slice && u.write = write && u.on beat) &&
    (if write then x.writeAt else x.readAt) ≠ beat + 1 && !(write && s.recvHere die phys slice)

/-- An unscheduled access takes a slice port for the beat in progress. -/
def State.takePort (s : State) (die phys slice : Nat) (write : Bool) : State :=
  let now := (s.regionOf die phys).beat + 1
  s.modSlice die phys slice fun x => if write then { x with writeAt := now } else { x with readAt := now }

/-- SPAD_SCRUB INTERVAL of a cluster. -/
def State.scrubInterval (s : State) (die phys : Nat) : Nat := bitsOf (s.reg (clSite die phys) 0x5008 256) 0 16

/-- SCRUB_READ (R188): the next 512-byte row on an idle read beat, at most once in INTERVAL beats; single-bit
errors are counted and kept for the write-back, an uncorrectable word is counted and recorded (R186). -/
def execScrubRead (die phys slice : Nat) (s : State) : Host.Outcome State Fault Refusal :=
  done s (
    let x := (s.cluster die phys).slice slice
    let beat := (s.regionOf die phys).beat
    let n := s.scrubInterval die phys
    if x.st = .on && n ≠ 0 && x.scrubLast + n ≤ beat && s.portIdle die phys slice false then
      let inRow := fun (w : Nat) => w / 64 = x.scrubRow
      let ces := x.ce.filter inRow
      let ues := x.ue.filter inRow
      let s := (s.takePort die phys slice false).modSlice die phys slice fun x =>
        { x with scrubRow := (x.scrubRow + 1) % 32768, scrubLast := beat, scrubFix := x.scrubFix ++ ces }
      let s := ces.foldl (fun s w => (s.countCe1 die phys slice).record die 0 0x01 none phys 0
        (BitVec.ofNat 64 (8 * w + slice * 16777216)) false) s
      ues.foldl (fun s w => (s.countUe1 die phys slice w true).record die 1 0x13 none phys 0
        (BitVec.ofNat 64 (8 * w + slice * 16777216)) false) s
    else s)

/-- SCRUB_WRITEBACK (R188): the corrected words of one row not written since their read, in one write of that row. -/
def execScrubWriteback (die phys slice : Nat) (s : State) : Host.Outcome State Fault Refusal :=
  done s (
    let x := (s.cluster die phys).slice slice
    match x.scrubFix with
    | [] => s
    | w :: _ =>
      if x.st = .on && s.portIdle die phys slice true then
        (s.takePort die phys slice true).modSlice die phys slice fun x =>
          { x with ce := x.ce.filter fun v => !(x.scrubFix.contains v && v / 64 = w / 64),
                   scrubFix := x.scrubFix.filter fun v => v / 64 ≠ w / 64 }
      else s)

/-! At the slice (R181, R192, R193, R204, R311). -/

/-- Whether a slice refuses an access as DARK (R193). -/
def Slice.darkFor (x : Slice) (src beat : Nat) : Bool :=
  match x.st with
  | .on => false
  | .closing => x.probes.contains src || (match x.drained with
    | some g => decide (g ≤ beat)
    | none => false)
  | _ => true

/-- A request of this package's keeper; what the management core sends travels for the tenant whose command it serves, and is
held to that tenant's aperture (R214, R311; notes/assumptions/110.md). -/
def State.fromKeeper (s : State) (p : Packet) : Bool := p.vc = 3 && p.spkg = s.slot && p.srcid = 40 && p.tenant = 0

/-- Whether a request may touch its range (R8, R311): the keeper's always. -/
def State.allowed (s : State) (die phys : Nat) (p : Packet) : Bool :=
  let off := addrOff p.daddr
  let l := (s.logOf die phys).getD 0x1F
  off + p.len ≤ 2 ^ 26 && inOneSlice off p.len &&
    (p.len = 0 || s.fromKeeper p || (s.tenant p.tenant).holds die l off p.len)

/-- What an unscheduled read of a range does to the counters: single-bit errors are corrected and counted, an uncorrectable
word is counted and recorded (R185, R186). -/
def State.readCounts (s : State) (die phys off len tenant : Nat) : State :=
  let c := s.cluster die phys
  let s := (s.setCluster die phys (c.countCe off len)).eccFlush die phys none 0 0
  (c.uesIn off len).foldl (fun s w =>
    (s.countUe1 die phys (w / 2097152) (w % 2097152) true).record die 1 0x13 (some tenant) phys (s.beatNow tenant)
      (BitVec.ofNat 64 (8 * w)) false) s

/-- A read at its slice on the beat in progress; an uncorrectable word makes the answer FAULT (R184, R186). -/
def State.performRead (s : State) (die phys : Nat) (p : Packet) : State :=
  let off := addrOff p.daddr
  let c := s.cluster die phys
  let s := s.readCounts die phys off p.len p.tenant
  if (c.uesIn off p.len).isEmpty then s.respond die phys 0 p .ok (c.read off p.len) else s.respond die phys 0 p .fault []

/-- Perform an access on an idle beat of its port: a read now, a write at the end of the beat (R181, R184). One of no bytes
uses no port. -/
def State.perform (s : State) (die phys : Nat) (x : Access) : State :=
  let i := sliceOf (addrOff x.pkt.daddr)
  if x.pkt.len = 0 then s.respond die phys 0 x.pkt .ok []
  else if x.pkt.op = 2 then (s.takePort die phys i false).performRead die phys x.pkt
  else (s.takePort die phys i true).modSlice die phys i fun y => { y with landing := y.landing ++ [x] }

/-- An access refused as DARK is counted and recorded with its source and offset (R193). -/
def State.countDark (s : State) (die phys off src tenant : Nat) (write : Bool) : State :=
  let i := sliceOf off
  let x := (s.cluster die phys).slice i
  let s := (s.modSlice die phys i fun x => { x with darkCount := satAdd x.darkCount 1 }).noteCount (clSite die phys)
    (0x5060 + 4 * i) x.darkCount 1
  s.record die 1 0x15 (some tenant) phys (s.beatNow tenant)
    (BitVec.ofNat 64 (off % sliceBytes + i * 16777216 + src % 64 * 67108864 + if write then 4294967296 else 0)) false

def State.refuseDark (s : State) (die phys : Nat) (p : Packet) : State :=
  (s.countDark die phys (addrOff p.daddr) p.srcid p.tenant (p.op = 1)).respond die phys 0 p .dark []

/-- A request reaches its slice (R193, R204, R311): refused, performed on an idle beat, or left waiting for
one. -/
def State.reach (s : State) (die phys : Nat) (b : Buffered) : State :=
  let p := b.pkt
  let i := sliceOf (addrOff p.daddr)
  let x := (s.cluster die phys).slice i
  let beat := (s.regionOf die phys).beat
  let y : Access := { lane := b.lane, src := b.src, at_ := beat, pkt := p }
  if !s.allowed die phys p then s.respond die phys 0 p .bounds []
  else if x.darkFor b.src beat then s.refuseDark die phys p
  else if x.waiting.isEmpty && s.portIdle die phys i (p.op = 1) then s.perform die phys y
  else s.modSlice die phys i fun x => { x with waiting := x.waiting ++ [y] }

/-! At the data SRAM (R175, R176, R213). -/

/-- The byte of the data SRAM an offset names lies in a window of a context of the tenant. -/
def Cluster.inWindow (c : Cluster) (tenant off : Nat) : Bool :=
  c.ctxs.any fun e => e.2.valid && e.2.tenant = tenant && 1024 * e.2.dbase ≤ off &&
    off < 1024 * (e.2.dbase + e.2.dsize)

/-- The kind 6 port of the data SRAM is idle on the beat in progress. -/
def State.dportIdle (s : State) (die p : Nat) : Bool :=
  let beat := (s.regionOf die p).beat
  !(s.cluster die p).dport.any fun u => u.1 ≤ beat && beat ≤ u.2

/-- A request to unit-local space reaches the data SRAM: refused outside the windows of its tenant, or answered on a beat on
which the port is idle, a write's bytes landing at its end. With the port in use it stays at the router. -/
def State.reachLocal (s : State) (die phys : Nat) (b : Buffered) : State :=
  let p := b.pkt
  let off := addrOff p.daddr
  let c := s.cluster die phys
  let r := s.router die phys
  let t := s.setRouter die phys { r with arrived := r.arrived.erase b }
  if p.vc = 3 || !(List.range p.len).all fun j => c.inWindow p.tenant (off + j) then t.respond die phys 0 p .bounds []
  else if !s.dportIdle die phys then s
  else if p.op = 2 then t.respond die phys 0 p .ok (Tab.getRun 0 c.dsram off p.len)
  else (t.modCluster die phys fun c => { c with dwin := c.dwin ++ [(off, p.data.take p.len)] }).respond die phys 0 p .ok []

/-! At the port of a router. -/

/-- A drain probe for a slice that waits for it; any other empty WRITE with TRL is a write of no bytes (R192, R204). -/
def State.isProbe (s : State) (die phys : Nat) (p : Packet) : Bool :=
  let x := (s.cluster die phys).slice (sliceOf (addrOff p.daddr))
  p.op = 1 && addrSpace p.daddr = 0 && p.len = 0 && p.trl && p.spkg = s.slot && p.sdie = die && x.st = .closing && x.drained.isNone &&
    !x.probes.contains p.srcid

/-- The oldest request of a kind at a port reaches its slice or the data SRAM, when the port has room for the answer. -/
def State.arrive (s : State) (die phys op : Nat) : State :=
  let r := s.router die phys
  match r.arrived.find? fun b => b.pkt.op = op && !s.isProbe die phys b.pkt with
  | none => s
  | some b =>
    if !r.room 0 6 then s
    else if addrSpace b.pkt.daddr = 1 then s.reachLocal die phys b
    else (s.setRouter die phys { r with arrived := r.arrived.erase b }).reach die phys b

def execBnetWriteArrive (die phys : Nat) (s : State) : Host.Outcome State Fault Refusal :=
  done s (s.arrive die phys 1)

def execBnetReadArrive (die phys : Nat) (s : State) : Host.Outcome State Fault Refusal :=
  done s (s.arrive die phys 2)

/-- The accesses of a source that reached a slice on the beat of its probe were sent after it: they get DARK (R193). -/
def State.revoke (s : State) (die phys i src beat : Nat) : State :=
  let x := (s.cluster die phys).slice i
  let late := fun (y : Access) => y.src = src && y.at_ = beat
  let s := s.modSlice die phys i fun x =>
    { x with waiting := x.waiting.filter fun y => !late y, landing := x.landing.filter fun y => !late y }
  ((x.waiting ++ x.landing).filter late).foldl (fun s y => s.refuseDark die phys y.pkt) s

/-- DRAIN_PROBE_ARRIVE (R192, R193): the probe of a source has arrived at the port of a slice that is CLOSING, behind every
access the source sent before it. It is answered OK. -/
def execDrainProbeArrive (die phys slice src : Nat) (s : State) : Host.Outcome State Fault Refusal :=
  done s (
    let r := s.router die phys
    let toSlice := fun (b : Buffered) => b.src = src && sliceOf (addrOff b.pkt.daddr) = slice
    match r.arrived.find? toSlice with
    | none => s
    | some b =>
      if s.isProbe die phys b.pkt && b.pkt.srcid = src then
        let beat := (s.regionOf die phys).beat
        let s := s.setRouter die phys { r with arrived := r.arrived.erase b }
        let s := s.modSlice die phys slice fun x => { x with probes := src :: x.probes, probeAt := beat }
        (s.revoke die phys slice src beat).respond die phys 0 b.pkt .ok []
      else s)

/-- Whether a slice that an access waits at has gone dark meanwhile (R192, R193). -/
def Slice.darkNow (x : Slice) (beat : Nat) : Bool :=
  match x.st with
  | .on => false
  | .closing => (match x.drained with
    | some g => decide (g ≤ beat)
    | none => false)
  | _ => true

/-- UNSCHED_SLICE_ACCESS (R181, R193, R212): the oldest waiting access whose port is idle on this beat is performed; at a slice
that has gone dark the oldest is refused; behind the LOC lane of a fenced core nothing moves. -/
def execUnschedSliceAccess (die phys slice : Nat) (s : State) : Host.Outcome State Fault Refusal :=
  done s (
    let x := (s.cluster die phys).slice slice
    let drop := fun (s : State) (y : Access) => s.modSlice die phys slice fun x => { x with waiting := x.waiting.erase y }
    if 2 ≤ s.pstate die phys || !(s.router die phys).room 0 6 then s
    else if x.darkNow (s.regionOf die phys).beat then
      match x.waiting with
      | [] => s
      | y :: _ => (drop s y).refuseDark die phys y.pkt
    else
      match x.waiting.find? fun y => s.portIdle die phys slice (y.pkt.op = 1) with
      | none => s
      | some y => (drop s y).perform die phys y)

/-! Transfers (R287, R288, R293). -/

/-- Units of 256 bytes of a transfer (R204, R286). -/
def unitsOf (n : Nat) : Nat := (n + 255) / 256

/-- Units an OCT transfer keeps outstanding (notes/assumptions/20.md). -/
def unitWindow : Nat := 64

/-- The bulk packet of one unit (R203, R287): tag the unit's number. -/
def State.unitPacket (s : State) (tenant : Nat) (x : Xfer) (u : Nat) : Packet :=
  let lo := 256 * u
  let len := if x.n - lo < 256 then x.n - lo else 256
  { daddr := s.sharedAddr x.die x.cluster (x.addr + lo), op := if x.isWrite then 1 else 2, len := len,
    trl := false, ep := 0, vc := if x.isWrite then 0 else 1, tenant := tenant, srcid := 40, spkg := s.slot,
    sdie := 0, tag := u % 32768, status := 0, chk := x.chk,
    data := if x.isWrite then (x.data.drop lo).take len else [] }

/-- Units of a transfer that can be issued: a READ's are its range, a WRITE's those whose bytes have come (R287). -/
def Xfer.ready (x : Xfer) : Nat := if x.isWrite then unitsOf x.data.length else unitsOf x.n

/-- Issue units while the window has room. -/
def State.issueUnits (s : State) (tenant : Nat) : Nat → State
  | 0 => s
  | fuel + 1 =>
    match (s.tenant tenant).xfer with
    | none => s
    | some x =>
      if x.ready ≤ x.next || unitWindow ≤ x.waiting.length then s
      else
        let p := s.unitPacket tenant x x.next
        let s := s.setTenant tenant { s.tenant tenant with
          xfer := some { x with next := x.next + 1, waiting := x.waiting ++ [x.next] } }
        State.issueUnits { s with eth := { s.eth with inbox := s.eth.inbox ++ [p] } } tenant fuel

/-- The segment head of R287. -/
def segHead (cseq off len : Nat) : List Byte := leBytes 4 cseq ++ leBytes 4 off ++ leBytes 2 len ++ leBytes 6 0

/-- Send the RDATA segments of a READ whose units are all read, in offset order (R288). -/
def State.sendSegments (s : State) (tenant : Nat) : Nat → State
  | 0 => s
  | fuel + 1 =>
    match (s.tenant tenant).xfer with
    | none => s
    | some x =>
      let lo := 32 * x.sent
      let hi := if unitsOf x.n < lo + 32 then unitsOf x.n else lo + 32
      if hi ≤ lo || x.isWrite || x.firstBad.isSome ||
          !((List.range (hi - lo)).all fun j => x.got.any fun e => e.1 = lo + j) then s
      else
        let data := ((List.range (hi - lo)).map fun j => Tab.get [] x.got (lo + j)).flatten
        let s := s.setTenant tenant { s.tenant tenant with xfer := some { x with sent := x.sent + 1 } }
        let s := s.sendPacket tenant 0x5 (segHead x.head.seq (8192 * x.sent) data.length ++ data)
        State.sendSegments s tenant fuel

/-- An answer to a unit of the tenant's OCT transfer. A WRITE goes on whatever the answer; a READ issues
nothing after a failure (R287, R288). -/
def State.unitAnswer (s : State) (p : Packet) : State :=
  let t := s.tenant p.tenant
  match t.xfer with
  | none => s
  | some x =>
    match x.waiting.find? fun u => u % 32768 = p.tag with
    | none => s
    | some u =>
      let st := p.status
      let bad := st ≠ 0
      let first := match x.firstBad with
        | some (v, w) => if bad && u < v then some (u, st) else some (v, w)
        | none => if bad then some (u, st) else none
      let x' := { x with waiting := x.waiting.erase u, firstBad := first,
                         refused := if st = 5 || st = 7 then x.refused + 1 else x.refused,
                         anyFault := x.anyFault || st = 7, anyDark := x.anyDark || st = 5,
                         next := if bad && !x.isWrite then unitsOf x.n else x.next,
                         got := if bad || x.isWrite then x.got else Tab.insert x.got u p.data }
      let s := s.setTenant p.tenant { t with xfer := some x' }
      ((s.issueUnits p.tenant unitWindow).sendSegments p.tenant 8192).pumpEth

/-- An answer to a unit of a scale-out message (R293): after the last OK the flag is counted; a failure counts
in ETH_PFAIL. -/
def State.messageAnswer (s : State) (p : Packet) : State :=
  let t := s.tenant p.tenant
  let id := p.tag % 32768 / 32
  match t.inMsgs.find? fun m => m.id = id with
  | none => s
  | some m =>
    let m' := { m with waiting := m.waiting.erase (p.tag % 32), failed := m.failed || p.status ≠ 0 }
    let others := t.inMsgs.filter fun x => x.id ≠ id
    if !m'.waiting.isEmpty then s.setTenant p.tenant { t with inMsgs := m' :: others }
    else
      let s := s.setTenant p.tenant { t with inMsgs := others }
      let fail := fun (s : State) => s.countEth 7 1
      if m'.failed then fail s
      else
        match t.binding with
        | none => fail s
        | some b =>
          match b.place (24 * m.desc.tdie + m.desc.tcl) with
          | none => fail s
          | some (d, q) =>
            let c := s.cluster d q
            match c.flagIn p.tenant m.desc.flag with
            | some f => if (c.flag f).opened then s.flagTo d q p.tenant m.desc.flag 0 .cnt false else fail s
            | none => fail s

/-- An answer reaches its source: the Ethernet station's transfers take theirs; at a router port none is
expected. -/
def State.takeAnswer (s : State) (die src op : Nat) : State :=
  let phys := srcPhys src
  let r := s.router die phys
  match r.arrived.find? fun b => b.pkt.op = op && b.pkt.srcid = src with
  | none => s
  | some b =>
    let s := s.setRouter die phys { r with arrived := r.arrived.erase b }
    if src ≠ 40 then s else if 32768 ≤ b.pkt.tag then s.messageAnswer b.pkt else s.unitAnswer b.pkt

def execBnetRdataArrive (die src : Nat) (s : State) : Host.Outcome State Fault Refusal :=
  done s (s.takeAnswer die src 3)

def execBnetWdoneArrive (die src : Nat) (s : State) : Host.Outcome State Fault Refusal :=
  done s (s.takeAnswer die src 4)

end Sys2Proof.Machine
end

