-- ==== Sys2Proof/Machine/Links.lean ====
section
/-!
DEFINITION. The board links (R242 to R269): training, evaluation and swaps, leaving UP, frames sent and received,
and the entries that cross (R50, R238, R239).
-/

namespace Sys2Proof.Machine

def LinkSt.code : LinkSt → Nat
  | .down => 0 | .signal => 1 | .ident => 2 | .opened => 3 | .up => 4 | .spare => 5 | .quar => 6 | .retrain => 7

/-- A link state change other than leaving UP, recorded under cause 0x06 (R260, R407). No version is negotiated before IDENT
completes (R269). -/
def State.linkTo (s : State) (die link : Nat) (goal : LinkSt) (reason : Nat) : State :=
  let l := s.link die link
  let ver := if goal = .down || goal = .signal || goal = .ident then 0 else l.ver
  let s := s.setLink die link { l with st := goal, reason := reason, since := s.clock.sid, ver := ver }
  if l.st = goal then s
  else s.record die 0 0x06 none 0x1F 0
    (BitVec.ofNat 64 (link + l.st.code * 32 + goal.code * 512 + reason * 8192)) false

/-- The reference of a die's links is within its limits (R433). -/
def State.refUlb (s : State) (die : Nat) : Bool := if die = 0 then s.pins.refUlb0 else s.pins.refUlb1

/-- Links train once First Light has published the map, in the states with a SerDes (R369, R388). -/
def State.linksOn (s : State) : Bool := s.boot.ready && (s.power.st = .active || s.power.st = .poised || s.power.st = .retained)

/-- LINK_SIGNAL_DETECT (R260). After a SIGNAL timeout the link tries again after 100 ms only
(LINK_SIGNAL_RETRY). -/
def execLinkSignalDetect (die link : Nat) (s : State) : Host.Outcome State Fault Refusal :=
  done s (
    let l := s.link die link
    if die < 2 && link < 24 && l.st = .down && l.en && l.retryAt.isNone && s.linksOn then
      s.linkTo die link .signal 0
    else s)

/-- LINK_SIGNAL_RETRY (R260). -/
def execLinkSignalRetry (die link : Nat) (s : State) : Host.Outcome State Fault Refusal :=
  done s (
    let l := s.link die link
    match l.retryAt with
    | some t =>
      if l.st = .down && l.en && s.linksOn && reached s.clock.sid t then
        let s := s.linkTo die link .signal 0
        s.setLink die link { s.link die link with retryAt := none }
      else s
    | none => s)

/-- A link begins IDENT: its ports stand in their own positions (R257), and nothing has been exchanged yet. -/
def Link.train (l : Link) (laneSwapped : Bool) : Link :=
  { l with lanesw := laneSwapped, port := none, ident := none, identRow := 0, exchanges := 0, dmax := 0, rxFrame := none,
           rxPart := [], rxOpen := none }

/-- LINK_LOCK (R242, R243, R260): a rate more than 20 ppm off never leaves SIGNAL. A lock shows that the die's
reference is within its limits (notes/assumptions/21.md). The code, the lanes' order and the scrambler stay below the frames
(notes/assumptions/120.md). -/
def execLinkLock (die link : Nat) (laneSwapped : Bool) (ppm : Nat) (s : State) : Host.Outcome State Fault Refusal :=
  done s (
    let l := s.link die link
    if die < 2 && link < 24 && l.st = .signal && ppm ≤ 20 then
      let s := { s with pins := if die = 0 then { s.pins with refUlb0 := true } else { s.pins with refUlb1 := true } }
      let s := s.linkTo die link .ident 0
      s.setLink die link ((s.link die link).train laneSwapped)
    else s)

/-- LINK_SIGNAL_TIMEOUT (R260): 50 ms. -/
def execLinkSignalTimeout (die link : Nat) (s : State) : Host.Outcome State Fault Refusal :=
  done s (
    let l := s.link die link
    if l.st = .signal && s.elapsed l.since 50000000 then
      let s := s.linkTo die link .down 0
      s.setLink die link { s.link die link with retryAt := some (s.clock.sid + nsUnits 100000000) }
    else s)

/-- LINK_IDENT_TIMEOUT (R260): 2 ms. -/
def execLinkIdentTimeout (die link : Nat) (s : State) : Host.Outcome State Fault Refusal :=
  done s (
    let l := s.link die link
    if l.st = .ident && s.elapsed l.since 2000000 then s.linkTo die link .down 0 else s)

/-- LINK_TRANSMITTER_RESTART (R260). -/
def execLinkTransmitterRestart (die link : Nat) (s : State) : Host.Outcome State Fault Refusal :=
  done s (if (s.link die link).st = .retrain && s.linksOn then s.linkTo die link .signal 0 else s)

/-! Evaluation (R262 to R265). -/

/-- Highest link version of a stepping (R262). -/
def vmaxOf (step : Nat) : Nat := if step = 0xB0 then 2 else 1

/-- LAT in beats at 850 MHz, rounded up (R253). -/
def latOf (delay : Nat) : Nat := ((delay + Config.stationDelay) * 17 + 1310719) / 1310720

/-- TRID of this package (R261). -/
def State.ownTrid (s : State) : Word :=
  match s.board with
  | some b => BitVec.ofNat 32 b.digest.toNat
  | none => 0

/-- The far end the record expects for one of this package's links; none when unused (R256). -/
def State.expected (s : State) (die link : Nat) : Option (Nat × Nat × Nat) :=
  match s.board with
  | some b => ((b.far.find? fun e => e.1 = (s.slot, die, link)).map (·.2)).join
  | none => none

/-- The links of a bundle that are UP, by key. -/
def State.bundle (s : State) (slot : Nat) : List Nat :=
  (s.links.filter fun e => e.2.st = .up && e.2.peer.isSome && e.2.peerSlot = slot).map (·.1)

/-- What a link's evaluation comes to: state, reason, REMAP (R263, R265). -/
def State.evaluate (s : State) (die link : Nat) (r : IdentRecord) : LinkSt × Nat × Bool :=
  let l := s.link die link
  let v := if r.vmax < vmaxOf s.part.step then r.vmax else vmaxOf s.part.step
  match s.board with
  | none =>
    if r.serial = s.part.serial then (.quar, 1, false)
    else if v < r.vmin || v < 1 then (.quar, 2, false) else (.opened, 0, false)
  | some b =>
    if r.serial = s.part.serial then (.quar, 1, false)
    else if v < r.vmin || v < 1 then (.quar, 2, false)
    else if s.ownTrid = 0 then (.opened, 0, false)
    else if r.trid ≠ s.ownTrid then (.quar, 3, false)
    else
      match s.expected die link with
      | none => (.spare, 0, false)
      | some (slot, _, _) =>
        if r.slot = s.slot || !b.slots.contains r.slot then (.quar, 4, false)
        else if b.pins.any fun p => p.1 = r.slot && BitVec.ofNat 64 p.2 ≠ r.serial then (.quar, 5, false)
        else if 30 < latOf l.dmax then (.quar, 6, false)
        else if r.slot ≠ slot then
          if l.swappol && (s.bundle r.slot).length < 8 then (.up, 0, true) else (.quar, 7, false)
        else (.up, 0, false)

/-- Where a link's far end lies: die and port of the peer's record. -/
def Link.farEnd (l : Link) : Option (Nat × Nat) := l.peer.map fun p => (p.die, p.port)

/-- The positions of a bundle whose far end differs from the record, with the far end expected. -/
def State.misplaced (s : State) (slot : Nat) : List (Nat × Nat × Nat) :=
  (s.bundle slot).filterMap fun k =>
    match s.expected (k / 24) (k % 24) with
    | some (p, d, n) =>
      if p = slot && (s.link (k / 24) (k % 24)).farEnd ≠ some (d, n) then some (k, d, n) else none
    | none => none

/-- The link of a bundle that reaches a far end now. -/
def State.reaching (s : State) (slot d n : Nat) : Option Nat :=
  (s.bundle slot).find? fun k => (s.link (k / 24) (k % 24)).farEnd = some (d, n)

/-- The own crossbar can give every misplaced position its far end from a port of the same die (R264). -/
def State.canRepair (s : State) (slot : Nat) : Bool :=
  (s.misplaced slot).all fun m => match s.reaching slot m.2.1 m.2.2 with
    | some k => k / 24 = m.1 / 24
    | none => false

/-- The link of this package for which the record expects a far end at a slot. -/
def State.expecting (s : State) (slot d n : Nat) : Option Nat :=
  (List.range 48).find? fun k => s.expected (k / 24) (k % 24) = some (slot, d, n)

/-- The peer's crossbar can: the port of the peer that reaches the link its position expects is on the position's die. -/
def State.peerCanRepair (s : State) (slot : Nat) : Bool :=
  (s.misplaced slot).all fun m =>
    match (s.link (m.1 / 24) (m.1 % 24)).farEnd with
    | some (d, n) => match s.expecting slot d n with
      | some k => (s.bundle slot).contains k && (s.link (k / 24) (k % 24)).farEnd.any fun x => x.1 = d
      | none => false
    | none => false

/-- The SerDes port that feeds a position (R257). -/
def Link.portAt (l : Link) (link : Nat) : Nat := l.port.getD link

/-- Connect the ports of a bundle so that each misplaced position reaches its expected far end: the position
takes the port, far end and measured delay of the link that reaches it now. -/
def State.crossbar (s : State) (slot : Nat) : State :=
  (s.misplaced slot).foldl (fun t m =>
    match s.reaching slot m.2.1 m.2.2 with
    | some k =>
      let from_ := s.link (k / 24) (k % 24)
      let die := m.1 / 24
      let link := m.1 % 24
      let port := from_.portAt (k % 24)
      t.setLink die link { t.link die link with
        peer := from_.peer, lat := from_.lat, delay := from_.delay,
        port := if port = link then none else some port }
    | none => t) s

/-- The peer's crossbar has changed: each misplaced position reaches its expected far end. -/
def State.peerCrossbar (s : State) (slot : Nat) : State :=
  (s.misplaced slot).foldl (fun t m =>
    let die := m.1 / 24
    let link := m.1 % 24
    let l := t.link die link
    t.setLink die link { l with peer := l.peer.map fun p => { p with die := m.2.1, port := m.2.2 } }) s

/-- SWAP_REPAIR (R264): the lower slot tries first, then the higher; else the positions are SWAPX, until a further link of the
bundle comes UP and both ends try again. The swap is recorded under cause 0x04. -/
def State.repairSwap (s : State) (slot : Nat) : State :=
  let bad := s.misplaced slot
  if bad.isEmpty then s
  else
    let own := s.canRepair slot
    let peer := s.peerCanRepair slot
    let fixed := own || peer
    let byMe := own && (decide (s.slot < slot) || !peer)
    let t := if byMe then s.crossbar slot else if fixed then s.peerCrossbar slot else s
    bad.foldl (fun t m =>
      let die := m.1 / 24
      let link := m.1 % 24
      let l := t.link die link
      let t := t.setLink die link { l with swapin := fixed, swapx := !fixed }
      t.record die 0 0x04 none 0x1F 0
        (BitVec.ofNat 64 (link + (if fixed then 32 else 64) + slot * 256)) false) t

/-- TIME_XMIN once every other listed package has an UP bundle (R49). -/
def State.measureXmin (s : State) : State :=
  match s.board with
  | none => s
  | some b =>
    let others := b.slots.filter (· ≠ s.slot)
    let worst := fun (p : Nat) => (s.bundleLink p).map fun k =>
      Config.stampDelivery (s.link (k / 24) (k % 24)).delay % 65536
    if others.all fun p => (worst p).isSome then
      let m := others.foldl (fun (m : Nat) p => if m < (worst p).getD 0 then (worst p).getD 0 else m) 0
      { s with clock := { s.clock with xmin := m } }
    else s

/-- Take a link to the outcome of its evaluation. A link that comes UP joins its bundle: swaps are settled,
routes and the release lead's bound follow (R49, R258, R264, R265); what waited for it is sent (R267). -/
def State.settleLink (s : State) (die link : Nat) (r : IdentRecord) : State :=
  let (st, reason, remap) := s.evaluate die link r
  let v := if r.vmax < vmaxOf s.part.step then r.vmax else vmaxOf s.part.step
  let l := s.link die link
  let s := s.setLink die link { l with
    peer := some r, ver := v, lat := latOf l.dmax, latValid := true, remap := remap,
    swapin := false, swapx := false }
  let s := s.linkTo die link st reason
  if st ≠ .up then s
  else
    let l := s.link die link
    let s := s.setLink die link { l with
      leftAt := none, failRow := 0, nak := none, skipping := false, txPart := none, txCont := [], txResume := false,
      rxFrame := none, rxPart := [], rxOpen := none, credits := [], owed := [], kept := [], keptSync := [] }
    let s := if remap then
        s.record die 0 0x04 none 0x1F 0 (BitVec.ofNat 64 (link + 128 + r.slot * 256)) false
      else s.repairSwap r.slot
    (s.measureXmin).rerouteBoth

/-- A link is evaluated in IDENT, and again in OPEN, SPARE and QUAR when the peer's record names another
topology record than before (R260). -/
def Link.evaluates (l : Link) (r : IdentRecord) : Bool :=
  match l.st, l.peer with
  | .ident, _ => true
  | .opened, some p => p.trid ≠ r.trid
  | .spare, some p => p.trid ≠ r.trid
  | .quar, some p => p.trid ≠ r.trid
  | _, _ => false

/-- Three identical records have come in a row in frames that did not fail, and 64 timestamp exchanges are made (R253, R260). -/
def Link.settled (l : Link) (r : IdentRecord) : Bool :=
  3 ≤ l.identRow && 64 ≤ l.exchanges && l.ident.any (sameIdent r)

/-- LINK_IDENT_EVALUATE (R260, R263): the record `r` of the peer's TRAIN frames is evaluated. -/
def execLinkIdentEvaluate (die link : Nat) (r : IdentRecord) (s : State) : Host.Outcome State Fault Refusal :=
  done s (
    let l := s.link die link
    if die < 2 && link < 24 && l.settled r && l.evaluates r then s.settleLink die link r else s)

/-! Leaving UP (R267). -/

/-- A router's partition of a tenant names an EDGE lane, or hands flits to it, in some entry of its period. -/
def State.partUses (s : State) (die phys tenant lane : Nat) : Bool :=
  (List.range 16).any fun n =>
    let cfg := s.partition die phys n
    let r := s.router die phys
    cfg.valid && cfg.tenant = tenant &&
      r.eph.any fun e => cfg.base ≤ e.1 && e.1 < cfg.base + cfg.period &&
        (cfg.named r (e.1 - cfg.base)).any fun x => x.1 = lane || x.2 = lane

/-- A Running plate uses a link: by its ephemeris, or as a sync link fixed at BIND (R252). -/
def State.linkUsed (s : State) (tenant die link : Nat) : Bool :=
  s.partUses die (stationPhys link) tenant (5 + link % 2) ||
    (s.tenant tenant).binding.any fun b => b.syncLinks.any fun x => x.2.2 = linkKey die link

/-- Halt the plates named by a class 4 record just made (R404, R448). -/
def State.haltAll (s : State) (die : Nat) (tenants : List Nat) : State :=
  let fseq := s.fseq die
  let s := s.noteRecord die tenants
  tenants.foldl (fun s t => s.haltRun t (s.beatNow t) .fault fseq true) s

/-- A link enters RETRAIN, counted; with 8 retrains within 1 s it is quarantined instead, ERRORS (R260). -/
def State.toRetrain (s : State) (die link : Nat) : LinkSt × Link :=
  let l := s.link die link
  let times := (l.retrains.filter fun t => !reached s.clock.sid (t + nsUnits 1000000000)) ++ [s.clock.sid]
  (if 8 ≤ times.length then .quar else .retrain, { l with retrains := times, retrain := satAdd l.retrain 1 })

/-- A link leaves UP (R267): `why` in the codes of cause 0x40. `down` forces it DOWN, which is no retrain. -/
def State.leaveUpTo (s : State) (die link why : Nat) (down : Bool) : State :=
  let hit := s.runningTenants.filter fun t => s.linkUsed t die link
  let l := s.link die link
  let (st, x) := if down then (.down, l) else s.toRetrain die link
  let s := s.setLink die link { x with
    st := st, reason := if st = .quar then 8 else 0, since := s.clock.sid, leftAt := some s.clock.sid,
    txPackets := l.kept.map (·.pkt) ++ l.txResend ++ l.txPackets, txResend := [], kept := [], keptSync := [],
    txSync := l.keptSync.map (·.2) ++ l.txSync, txFlits := [], txTransit := [], rxSched := [], credits := [],
    txPart := none, txCont := [], txResume := false, rxFrame := none, rxPart := [], rxOpen := none }
  let s := if down then s else s.noteLink die link 0x3C l.retrain 1
  let s := s.record die 4 0x40 none 0x1F 0 (BitVec.ofNat 64 (link + why * 32)) (!hit.isEmpty)
  let s := if hit.isEmpty then s else s.haltAll die hit
  s.rerouteBoth

/-- The codes of cause 0x40 (R407). -/
def leaveCode (w : LeaveWhy) : Nat :=
  match w with
  | .fecLock => 0 | .twoFrames => 1 | .oldNak => 2

def State.leaveUp (s : State) (die link why : Nat) : State := s.leaveUpTo die link why false

/-- LINK_LEAVE_UP (R267). -/
def execLinkLeaveUp (die link : Nat) (why : LeaveWhy) (s : State) : Host.Outcome State Fault Refusal :=
  done s (if die < 2 && link < 24 && (s.link die link).st = .up then s.leaveUp die link (leaveCode why) else s)

/-- Answer what waits for a link with FAULT: requests to their sources, responses discarded (R211, R267). -/
def State.answerQueued (s : State) (die link : Nat) : State :=
  let l := s.link die link
  let s := s.setLink die link { l with txPackets := [], leftAt := none }
  l.txPackets.foldl (fun s p => s.faultAnswer die (stationPhys link) (portLane 5 p.vc) p) s

/-- LINK_REQUEUE_TIMEOUT (R267): 1 ms without a return to UP. -/
def execLinkRequeueTimeout (die link : Nat) (s : State) : Host.Outcome State Fault Refusal :=
  done s (
    let l := s.link die link
    match l.leftAt with
    | some t => if l.st ≠ .up && s.elapsed t 1000000 then s.answerQueued die link else s
    | none => s)

/-- REF_ULB_LOSS (R433): the die's UP links lose their FEC lock; links that train stay in SIGNAL. -/
def execRefUlbLoss (die : Nat) (s : State) : Host.Outcome State Fault Refusal :=
  done s (
    let s := { s with pins := if die = 0 then { s.pins with refUlb0 := false } else { s.pins with refUlb1 := false } }
    (List.range 24).foldl (fun s k => if (s.link die k).st = .up then s.leaveUp die k 0 else s) s)

/-! LNK_CTL (R260, R269). -/

/-- The agents that may write LNK and ETH registers (R269, R449). -/
def mayWriteLinks (a : Agent) : Bool :=
  a.kind = .keeper || a.kind = .mgmt || (a.kind = .host && a.tenant = 0)

/-- Control-space address of a die-block register. -/
def State.dieAddr (s : State) (die off : Nat) : Nat :=
  s.slot * 2 ^ 44 + die * 2 ^ 43 + 0x1F * 2 ^ 38 + 2 * 2 ^ 36 + off

/-- Refuse a register write with AUTH, counted under cause 0x16 (R11, R269). -/
def State.refuseDie (s : State) (a : Agent) (die off : Nat) : State :=
  (s.authCount a die 0x1F (s.dieAddr die off)).answer .auth []

/-- The effect of LNK_CTL RETRAIN: from UP as R267, its cause code left open by the spec, or from QUAR. -/
def State.retrainLink (s : State) (die link : Nat) : State :=
  match (s.link die link).st with
  | .up =>
    let why := (Config.freeWord s.fresh).toNat % 4
    ({ s with fresh := s.fresh + 1 }).leaveUp die link why
  | .quar =>
    let old := (s.link die link).retrain
    let (st, l) := s.toRetrain die link
    ((s.setLink die link l).noteLink die link 0x3C old 1).linkTo die link st (if st = .quar then 8 else 0)
  | _ => s

/-- The effect of LNK_CTL EN: 0 forces DOWN, with the consequences of leaving UP where the link is UP. -/
def State.enableLink (s : State) (die link : Nat) (en : Bool) : State :=
  let s := s.setLink die link { s.link die link with en := en }
  if en || (s.link die link).st = .down then s
  else if (s.link die link).st = .up then
    let why := (Config.freeWord s.fresh).toNat % 4
    ({ s with fresh := s.fresh + 1 }).leaveUpTo die link why true
  else s.linkTo die link .down 0

/-- LNK_CTL_RETRAIN. -/
def execLnkCtlRetrain (a : Agent) (die link : Nat) (s : State) : Host.Outcome State Fault Refusal :=
  done s (
    if s.power.st = .off then s
    else if mayWriteLinks a then (s.retrainLink die link).answer .ok [] else s.refuseDie a die (0x2008 + 256 * link))

/-- LNK_CTL_EN. -/
def execLnkCtlEn (a : Agent) (die link : Nat) (en : Bool) (s : State) : Host.Outcome State Fault Refusal :=
  done s (
    if s.power.st = .off then s
    else if mayWriteLinks a then (s.enableLink die link en).answer .ok [] else s.refuseDie a die (0x2008 + 256 * link))

/-! Frames received (R245 to R249, R254, R255). -/

/-- The signed difference of two sidereal values that agree in their upper bits, 56 bits wide. -/
def diff56 (x y : DWord) : Int :=
  let d : Nat := (x - y).toNat % 72057594037927936
  if d < 36028797018963968 then (d : Int) else (d : Int) - 72057594037927936

/-- The delay of the latest timestamp exchange, in 1/65,536 ns (R255). -/
def Link.measured (l : Link) : Nat := ((diff56 l.t2 l.t1 + diff56 l.t4 l.t3) / 2).toNat

/-- An exchange is complete: its delay is the link's latest, and in training one of the 64 (R253, R269). -/
def Link.exchange (l : Link) : Link :=
  let d := l.measured
  { l with delay := d, exchanges := if l.st = .ident then l.exchanges + 1 else l.exchanges,
           dmax := if l.st = .ident && l.dmax < d then d else l.dmax }

/-- The follower takes its offset from the four times and disciplines its counter (R53, R255). -/
def State.discipline (s : State) (die link : Nat) : State :=
  let l := s.link die link
  let offset := (diff56 l.t2 l.t1 - diff56 l.t4 l.t3) / 2 - l.asym.toInt / 2
  let locked := decide (-65536 ≤ offset) && decide (offset ≤ 65536)
  let s := { s with clock := { s.clock with offset := BitVec.ofInt 32 offset,
                                            incr := Config.disciplined s.clock.incr offset } }
  s.setLocks locked (locked && s.clock.leaderPtp)

/-- TIMESTAMP_EXCHANGE (R245, R255): a good frame's header, received at a time. -/
def State.takeTimestamps (s : State) (die link : Nat) (h : FrameHead) (at_ : DWord) : State :=
  let mine := s.timingLink = some (linkKey die link) && s.clock.role ≠ 3
  let l := s.link die link
  if h.fseq = 0 then
    let s := s.setLink die link { l with t2 := at_ }
    if mine then { s with clock := { s.clock with lastFseq0 := s.clock.sid } } else s
  else if h.fseq = 4 then s.setLink die link { l with t1 := BitVec.ofNat 64 (h.ts * 256) }
  else if h.fseq = 8 then
    let s := s.setLink die link { l with t4 := BitVec.ofNat 64 (h.ts * 256) }.exchange
    if mine then s.discipline die link else s
  else s

/-- The identity record of a good TRAIN frame (R255, R260, R261). -/
def Link.hear (l : Link) (r : IdentRecord) (at_ : DWord) : Link :=
  { l with ident := some r, identRow := if l.ident.any (sameIdent r) then l.identRow + 1 else 1,
           skew := r.sid + BitVec.ofNat 64 l.delay - at_ }

/-- The FEC figures of a frame, at most 15 symbols in a codeword (R242); a MAXSYM of 10 or more is a margin warning (R269,
R395). -/
def State.takeMargin (s : State) (die link : Nat) (f : LinkFrame) : State :=
  let l := s.link die link
  let sym := if f.maxsym < 15 then f.maxsym else 15
  let m := if f.uncor then 16 else sym
  let recent := l.margins.filter fun x => !reached s.clock.sid (x.1 + nsUnits 1000000)
  let s := s.setLink die link { l with
    maxsym := if l.maxsym < sym then sym else l.maxsym, fecc := satAdd l.fecc f.corrected,
    margins := recent ++ [(s.clock.sid, m)] }
  let s := s.noteLink die link 0x2C l.fecc f.corrected
  let s := s.note (dieSite die) (lnkOff link 0x28) (BitVec.ofNat 32 l.maxsym) (BitVec.ofNat 32 sym) wordMax
  if 10 ≤ sym then s.record die 0 0x02 none 0x1F 0 (BitVec.ofNat 64 (link + sym * 32)) false else s

/-- The tenant whose scheduled flits come over a link: the one running whose partition is granted the EDGE input (R199). -/
def State.edgeTenant (s : State) (die link : Nat) : Option Nat :=
  (((List.range 16).map (s.partition die (stationPhys link))).find? fun c =>
    c.valid && bitSet c.ins (5 + link % 2) && (s.tenant c.tenant).st = .running).map (·.tenant)

/-- The tenants with a scheduled flit or a FLAGOP in a frame, as its header and sub-slot came (R249;
notes/assumptions/119.md). -/
def State.frameTenants (s : State) (die link : Nat) (f : LinkFrame) : List Nat :=
  let flits := if (readHead f.bytes).kinds.contains 1 then (s.edgeTenant die link).toList else []
  (flits ++ (readSync (slotAt f.bytes 0)).filterMap fun e => match e with
    | .flagop t _ _ _ _ _ _ => some t
    | _ => none).eraseDups

/-- Count a failed frame in LNK_UNCOR or LNK_PCRC (R268). -/
def State.countBad (s : State) (die link : Nat) (uncor : Bool) : State :=
  let l := s.link die link
  if uncor then (s.setLink die link { l with uncor := satAdd l.uncor 1 }).noteLink die link 0x30 l.uncor 1
  else (s.setLink die link { l with pcrc := satAdd l.pcrc 1 }).noteLink die link 0x34 l.pcrc 1

/-- A failed frame (R249): every slot of it is discarded. On a link that trains it breaks the row of records; on an UP link its
FSEQ goes back in a NAK, plates with a flit or FLAGOP in it halt, and the second in a row ends UP. A reserved FTYPE counts as a
failed check (notes/assumptions/22.md). -/
def State.frameFailed (s : State) (die link : Nat) (f : LinkFrame) : State :=
  let s := s.countBad die link f.uncor
  let l := s.link die link
  let fseq := (readHead f.bytes).fseq
  if l.st ≠ .up then s.setLink die link { l with identRow := 0, rxFrame := none }
  else
    let row := l.failRow + 1
    let s := s.setLink die link
      { l with nak := some fseq, skipping := true, failRow := row, rxFrame := none, rxPart := [], rxOpen := none }
    let detail := BitVec.ofNat 64 (link + fseq * 32 + if f.uncor then 0 else 512)
    let ts := s.frameTenants die link f
    let hit := ts.filter fun t => (s.tenant t).st = .running
    let s :=
      if ts.isEmpty then s.record die 0 0x03 none 0x1F 0 detail false
      else
        let s := s.record die 4 0x41 none 0x1F 0 detail (!hit.isEmpty)
        if hit.isEmpty then s else s.haltAll die hit
    if 2 ≤ row then s.leaveUp die link 1 else s

/-- LINK_NAK_REPLAY (R249): the packets with a slot in the named frame or later go out again, in order and whole, before those
that already wait to, on the credits they hold, and the STAMP and HALT entries of that frame; a NAK older than the frames kept
makes the link leave UP (notes/assumptions/119.md). -/
def State.takeNak (s : State) (die link nakseq : Nat) : State :=
  let l := s.link die link
  let lo := l.framesOut - 4
  match ((List.range 4).map (lo + ·)).find? fun n => n < l.framesOut && n % 16 = nakseq with
  | none => s.leaveUp die link 2
  | some n =>
    let again := l.kept.filter fun k => n ≤ k.last
    let s := s.noteLink die link 0x38 l.rpl again.length
    s.setLink die link { l with
      kept := l.kept.filter fun k => k.last < n, txResend := again.map (·.pkt) ++ l.txResend, txCont := [], txResume := true,
      rpl := satAdd l.rpl again.length,
      txSync := ((l.keptSync.filter fun k => k.1 = n).map (·.2)) ++ l.txSync,
      keptSync := l.keptSync.filter fun k => k.1 ≠ n }

/-- The full plate beat of a 20-bit report, nearest to the own beat (R254). -/
def fullBeat (own low : Nat) : Nat :=
  let base := own - own % 1048576 + low % 1048576
  if own + 524288 < base && 1048576 ≤ base then base - 1048576
  else if base + 524288 < own then base + 1048576 else base

/-- Take the entries of a good frame's sync sub-slot (R238, R247). -/
def State.takeSync (s : State) (die link : Nat) (e : SyncEntry) : State :=
  match e with
  | .stamp t slot exp a => s.takeStamp t slot exp a
  | .reserved type =>
    s.record die 0 0x05 none 0x1F 0 (BitVec.ofNat 64 (link + type % 16 * 32)) false
  | e =>
    let l := s.link die link
    s.setLink die link { l with rxSync := l.rxSync ++ [e] }

/-- A good DATA frame on an UP link (R245 to R249, R254). -/
def State.frameGood (s : State) (die link : Nat) (f : LinkFrame) : State :=
  let l := s.link die link
  let h := readHead f.bytes
  let own := s.beatsOf h.ten
  let t := Taker.run { part := l.rxPart, open_ := l.rxOpen, skip := l.skipping, flits := [], packets := [] } h.kinds f.bytes
    f.resent
  let mine := (s.edgeTenant die link).toList
  let s := s.setLink die link { l with
    failRow := 0,
    credits := if h.crsc < 12 then Tab.modify 0 l.credits h.crsc (· - h.crn) else l.credits,
    skipping := t.skip, rxPart := t.part, rxOpen := t.open_,
    peerBeat := if (s.tenant h.ten).st = .running then Tab.insert l.peerBeat h.ten (fullBeat own h.beat)
      else l.peerBeat,
    rxSched := l.rxSched ++ t.flits.flatMap fun bs => mine.map fun x => { tenant := x, data := bs },
    rxPackets := l.rxPackets ++ t.packets }
  let s := (readSync (slotAt f.bytes 0)).foldl (fun s e => s.takeSync die link e) s
  let s := s.pumpLink die link
  if h.nakv then s.takeNak die link h.nakseq else s

/-- A frame that the next one's PCRC has found good: its timestamps, the record of a TRAIN frame on a link that trains, the contents
of a DATA frame on an UP link. -/
def State.frameTaken (s : State) (die link : Nat) (f : LinkFrame) (at_ : DWord) : State :=
  let h := readHead f.bytes
  let s := s.takeTimestamps die link h at_
  let l := s.link die link
  if h.ftype = 1 then (if l.st = .up then s.frameGood die link f else s)
  else if l.st = .up then s
  else s.setLink die link (l.hear (readIdent (slotAt f.bytes 1)) at_)

/-- The link's receiver works: it is not DOWN, in SIGNAL or in RETRAIN. -/
def Link.framed (l : Link) : Bool := l.st ≠ .down && l.st ≠ .signal && l.st ≠ .retrain

/-- The frame held is judged by the PCRC of the one that follows; where that has an uncorrectable codeword itself, its PCRC says
nothing (notes/assumptions/119.md). -/
def State.judgeHeld (s : State) (die link : Nat) (next : LinkFrame) : State :=
  let l := s.link die link
  match l.rxFrame with
  | none => s
  | some (f, at_) =>
    if next.uncor || (readHead next.bytes).pcrc = frameCrc f.bytes then
      (s.setLink die link { l with rxFrame := none }).frameTaken die link f at_
    else s.frameFailed die link f

/-- LINK_FRAME_RECEIVE (R245 to R249, R255): the FEC figures count at once; the frame is held until the next one's PCRC judges it,
unless it has failed already. -/
def execLinkFrameReceive (die link : Nat) (f : LinkFrame) (s : State) : Host.Outcome State Fault Refusal :=
  done s (
    if 2 ≤ die || 24 ≤ link || !(s.link die link).framed then s
    else
      let s := (s.interpolate.takeMargin die link f).judgeHeld die link f
      let l := s.link die link
      let type := (readHead f.bytes).ftype
      if !l.framed then s
      else if f.uncor || (type ≠ 1 && type ≠ 2) then s.frameFailed die link f
      else s.setLink die link { l with rxFrame := some (f, s.now) })

/-! Frames sent (R236, R244 to R248, R252, R254, R261). -/

/-- The next packet to begin: one that answers a NAK, on the credit it holds, or the first whose sub-channel has a credit
(R248, R249). -/
def Link.nextPacket (l : Link) (sub : Packet → Nat) : Option (Packet × Link) :=
  match l.txResend with
  | p :: ps => some (p, { l with txResend := ps })
  | [] => (l.txPackets.find? fun p => Tab.get 0 l.credits (sub p) < 16).map fun p =>
    (p, { l with txPackets := l.txPackets.erase p, credits := Tab.modify 0 l.credits (sub p) (· + 1) })

/-- A frame in the making: the link, the bulk slots so far with their KIND, and the slot in which a packet begins that answers a
NAK. -/
abbrev Giving := Link × List (Nat × List Byte) × Option Nat

/-- Fill the next bulk slot of frame n (R246): a scheduled flit ahead of unscheduled slots, one unscheduled packet at a time, zeros
in an idle slot. -/
def giveSlot (sub : Packet → Nat) (n : Nat) (g : Giving) : Giving :=
  let (l, out, resent) := g
  match l.txPart, l.txFlits, l.txCont with
  | some (t, b :: bs), _, _ => ({ l with txPart := if bs.isEmpty then none else some (t, bs) }, out ++ [(1, b)], resent)
  | _, x :: xs, _ =>
    let bs := pieces 64 4 x.2.data
    ({ l with txFlits := xs, txPart := some (x.2.tenant, bs.drop 1) }, out ++ [(1, bs.headD [])], resent)
  | _, [], b :: bs =>
    let last := l.kept.length - 1
    let kept := l.kept.zipIdx.map fun k => if k.2 = last then { k.1 with last := n } else k.1
    ({ l with txCont := bs, kept := kept }, out ++ [(3, b)], resent)
  | _, [], [] =>
    match l.nextPacket sub with
    | some (p, l) =>
      ({ l with txCont := tailSlots p, txResume := false, kept := l.kept ++ [{ frame := n, last := n, pkt := p }] },
       out ++ [(2, headSlot p)], if l.txResume then some (out.length + 1) else resent)
    | none => (l, out ++ [(0, [])], resent)

/-- Fill `k` bulk slots. -/
def giveSlots (sub : Packet → Nat) (n : Nat) : Nat → Giving → Giving
  | 0, g => g
  | k + 1, g => giveSlots sub n k (giveSlot sub n g)

/-- The entries of the next sync sub-slot: FLAGOPs in positions 0 and 1, stamps and halts in 2 and 3, either kind
taking what the other leaves free (R236, R247). -/
def takeEntries (q : List SyncEntry) : List SyncEntry × List SyncEntry :=
  let fl := q.filter isFlagop
  let ot := q.filter fun e => !isFlagop e
  let nf := if 2 ≤ ot.length then (if fl.length < 2 then fl.length else 2)
    else if fl.length < 4 - ot.length then fl.length else 4 - ot.length
  let no := if ot.length < 4 - nf then ot.length else 4 - nf
  let a := fl.take nf ++ ot.take no
  (a, a.foldl List.erase q)

/-- The tenants a link reports beats of (R254). -/
def State.reportTenants (s : State) (die link : Nat) : List Nat :=
  s.runningTenants.filter fun t => match (s.tenant t).binding with
    | some b => 1 ≤ b.scope && (b.boardPeers s.slot s.boardIndex).contains (s.link die link).peerSlot &&
        s.partUses die (stationPhys link) t (5 + link % 2)
    | none => false

/-- The last plate beat a region completed for a tenant; 0 before the first. -/
def State.lastCompleted (s : State) (tenant region : Nat) : Nat :=
  match (s.tenant tenant).run with
  | some r => Tab.get 0 r.beats region - (if r.done.contains region || (s.region region).ended then 1 else 2)
  | none => 0

/-- The next tenant in turn. -/
def State.reportNow (s : State) (die link : Nat) : Nat × Nat :=
  let ts := s.reportTenants die link
  let pos := (s.link die link).rrTenant
  match (ts.filter fun t => pos ≤ t) ++ ts with
  | [] => (0, 0)
  | t :: _ => (t, s.lastCompleted t (linkRegion die link) % 1048576)

/-- The sub-channel whose credits the next header returns. -/
def Link.creditNow (l : Link) : Nat × Nat :=
  let ks := (l.owed.map (·.1)).filter (· < 12)
  match (ks.filter fun k => l.rrCredit ≤ k) ++ ks with
  | [] => (0xC, 0)
  | k :: _ => (k, let n := Tab.get 0 l.owed k; if n < 15 then n else 15)

/-- The record a TRAIN frame carries (R36, R261). -/
def State.ownIdent (s : State) (die link : Nat) : IdentRecord :=
  { serial := s.part.serial, port := (s.link die link).portAt link, die := die, slot := s.slot, vmin := 1,
    vmax := vmaxOf s.part.step, trid := s.ownTrid, sid := s.now }

/-- The FLAGOP entries that have crossed the transit network reach the station (R252). -/
def State.landTransit (s : State) (die link : Nat) : Link :=
  let l := s.link die link
  let here := fun (x : Nat × SyncEntry) => match x.2 with
    | .flagop t _ _ _ _ _ _ => (match s.liveBeat t (linkRegion die link) with
      | some b => decide (x.1 ≤ b)
      | none => false)
    | _ => true
  { l with txSync := l.txSync ++ (l.txTransit.filter here).map (·.2), txTransit := l.txTransit.filter fun x => !here x }

/-- The header of the next frame of a link, but for the kinds of its bulk slots (R245, R255). -/
def State.nextHead (s : State) (die link : Nat) (kinds : List Nat) : FrameHead :=
  let l := s.link die link
  let data := decide (l.st = .up)
  let (crsc, crn) := if data then l.creditNow else (0xC, 0)
  let (ten, beat) := if data then s.reportNow die link else (0, 0)
  { ftype := if data then 1 else 2, fseq := l.fseq, crsc := crsc, crn := crn, kinds := kinds, nakv := l.nak.isSome,
    nakseq := l.nak.getD 0, beat := beat, ten := ten,
    ts := if l.fseq = 4 then l.t3.toNat / 256 % 2 ^ 48 else if l.fseq = 8 then l.t2.toNat / 256 % 2 ^ 48 else 0,
    pcrc := match l.out with
      | some f => frameCrc f.bytes
      | none => 0 }

/-- The frame a link sends next, and the link after it. -/
def State.buildFrame (s : State) (die link : Nat) : LinkFrame × Link :=
  let l := s.landTransit die link
  let data := decide (l.st = .up)
  let n := l.framesOut
  let (l, slots, resent) := if data then giveSlots (relaySub l.peerSlot s.slot) n 31 (l, [], none)
    else (l, [(0, identBytes (s.ownIdent die link))], none)
  let (ents, ents') := if data then takeEntries l.txSync else ([], l.txSync)
  let h := s.nextHead die link (slots.map (·.1))
  let f : LinkFrame :=
    { bytes := frameBytes h (syncSlot ents) (slots.map (·.2)), uncor := false, maxsym := 0, corrected := 0, resent := resent }
  let keepSync := (ents.filter fun e => !isFlagop e).map fun e => (n, e)
  (f, { l with
    txSync := ents', owed := if h.crsc < 12 then Tab.modify 0 l.owed h.crsc (· - h.crn) else l.owed,
    rrCredit := if h.crsc < 12 then h.crsc + 1 else l.rrCredit,
    rrTenant := h.ten + 1, nak := none, out := some f, framesOut := n + 1, fseq := (l.fseq + 1) % 16,
    t3 := if l.fseq = 0 then s.now else l.t3,
    kept := l.kept.filter fun k => n < k.last + 4,
    keptSync := (l.keptSync.filter fun k => n < k.1 + 4) ++ keepSync })

/-- LINK_FRAME_SEND: a DATA frame in UP, a TRAIN frame in the states that send them (R260). -/
def execLinkFrameSend (die link : Nat) (s : State) : Host.Outcome State Fault Refusal :=
  done s (
    if 2 ≤ die || 24 ≤ link || !(s.link die link).framed then s
    else s.interpolate.setLink die link (s.interpolate.buildFrame die link).2)

/-! Entries that cross (R50, R222, R238, R239, R252). -/

/-- The oldest flit of a tenant that a link has received, and the others. -/
def takeFlit (tenant : Nat) (xs : List Flit) : Option (Flit × List Flit) :=
  (xs.find? fun f => f.tenant = tenant).map fun f => (f, xs.erase f)

/-- LINK_SCHED_CONSUME (R50, R196): at the start of plate beat b + 48 the entry leaves the station, to be at the
router's EDGE input two beats later, on the beat on which the tenant's partition names that input. -/
def execLinkSchedConsume (die link : Nat) (s : State) : Host.Outcome State Fault Refusal :=
  done s ((s.edgeDue die link 2).foldl (fun s x =>
    let l := s.link die link
    match takeFlit x.1 l.rxSched with
    | some (f, rest) =>
      let s := s.setLink die link { l with rxSched := rest }
      let r := s.router die (stationPhys link)
      s.setRouter die (stationPhys link) { r with flits := r.flits ++ [{ lane := 5 + link % 2, beat := x.2, flit := f }] }
    | none => s) s)

/-- FLAGOP_RECEIVE (R222, R238, R252): the oldest FLAGOP that is due, or that no binding can place, is consumed.
It is applied at the end of the beat 28 beats after its consumption. -/
def execFlagopReceive (die link : Nat) (s : State) : Host.Outcome State Fault Refusal :=
  done s (
    let l := s.link die link
    let ready := fun (e : SyncEntry) => match e with
      | .flagop t _ beat _ _ _ _ => (match s.liveBeat t (linkRegion die link) with
        | some b => flagDueAt b beat
        | none => (s.tenant t).binding.isNone || (s.tenant t).st ≠ .running)
      | _ => false
    match l.rxSync.find? ready with
    | some (.flagop t slot beat op flag tcl tdie) =>
      let s := s.setLink die link { l with
        rxSync := l.rxSync.erase (.flagop t slot beat op flag tcl tdie) }
      let bad := s.record die 0 0x05 none 0x1F 0 (BitVec.ofNat 64 (link + 32)) false
      match (s.tenant t).binding, FlagOp.ofCode op with
      | some b, some o =>
        match b.place (24 * tdie + tcl) with
        | none => bad
        | some (d, p) =>
          match s.liveBeat t (linkRegion die link) with
          | some now =>
            let sent := now - (now + 65536 - beat % 65536) % 65536
            s.flagTo d p t flag (sent + 76) o false
          | none => s
      | _, _ => bad
    | _ => s)

/-- HALT_RECEIVE (R239, R448): the plate halts with the status the entry carries, on the beat it arrives;
recorded under cause 0x42. -/
def execHaltReceive (die link : Nat) (s : State) : Host.Outcome State Fault Refusal :=
  done s (
    let l := s.link die link
    match l.rxSync.find? fun e => match e with
      | .halt _ _ _ _ => true
      | _ => false with
    | some (.halt t slot exp status) =>
      let s := s.setLink die link { l with rxSync := l.rxSync.erase (.halt t slot exp status) }
      if (s.tenant t).st ≠ .running then s
      else
        let s := s.record die 4 0x42 (some t) 0x1F (s.beatNow t)
          (BitVec.ofNat 64 (slot + s.boardIndex * 16 + status % 256 * 65536 + exp % 4294967296 * 16777216)) true
        let s := s.noteRecord die [t]
        s.haltRun t (s.beatNow t) (Status.ofCode status) (s.fseq die) false
    | _ => s)

end Sys2Proof.Machine
end

