-- ==== Sys2Proof/Machine/Port.lean ====
section
/-!
DEFINITION. Frames of the Ethernet port (R270, R271, R390, R391): which the port takes, the UDP datagram one carries, and its
answers to ARP, neighbour solicitations and echo requests. The places of the fields are those of IEEE 802.3 and 802.1Q and of
RFC 768, 791, 792, 826, 4291, 4443, 4861 and 8200, which the spec names and does not give (notes/assumptions/123.md).
-/

namespace Sys2Proof.Machine

/-! Network byte order, the FCS and the Internet checksum. -/

/-- The number bytes in network order spell. -/
def beNat (bs : List Byte) : Nat := leNat bs.reverse

def beBytes (n v : Nat) : List Byte := (leBytes n v).reverse

/-- A field of `n` bytes at byte `lo`, in network order. -/
def netField (bs : List Byte) (lo n : Nat) : Nat := beNat ((bs.drop lo).take n)

def fcsBit (c : Word) : Word := if c.getLsbD 0 then (c >>> 1) ^^^ 0xEDB88320 else c >>> 1

def fcsByte (c : Word) (b : Byte) : Word :=
  fcsBit (fcsBit (fcsBit (fcsBit (fcsBit (fcsBit (fcsBit (fcsBit (c ^^^ b.setWidth 32))))))))

/-- The FCS of a frame's bytes. -/
def fcs (bs : List Byte) : Word := bs.foldl fcsByte 0xFFFFFFFF ^^^ 0xFFFFFFFF

/-- The sum of the 16-bit words, a last odd byte filled with zero. -/
def wordSum : List Byte → Nat
  | a :: b :: bs => a.toNat * 256 + b.toNat + wordSum bs
  | [a] => a.toNat * 256
  | [] => 0

/-- The Internet checksum of bytes whose checksum field is zero. -/
def inetSum (bs : List Byte) : Nat :=
  let n := wordSum bs
  let m := n % 65536 + n / 65536
  65535 - (m % 65536 + m / 65536)

/-! Frames of layer 2. -/

/-- A frame taken apart: addresses, the TCI of its tag, the EtherType and what it carries. -/
structure EthFrame where
  dst : List Byte
  src : List Byte
  tci : Option Nat
  etype : Nat
  body : List Byte
  deriving DecidableEq, Repr

/-- The frame of a byte string; none where its FCS, its size or its EtherType is not one R270 supports. PAUSE, MACsec and a
second tag are EtherTypes R270 does not support. -/
def openFrame (bs : List Byte) : Option EthFrame :=
  let n := bs.length
  let kept := bs.take (n - 4)
  let tagged := netField bs 12 2 = 0x8100
  let at_ := if tagged then 16 else 12
  let f : EthFrame :=
    { dst := bs.take 6, src := (bs.drop 6).take 6, tci := if tagged then some (netField bs 14 2) else none,
      etype := netField bs at_ 2, body := kept.drop (at_ + 2) }
  if 64 ≤ n && n ≤ 9216 && leNat (bs.drop (n - 4)) = (fcs kept).toNat &&
      [0x0800, 0x0806, 0x86DD, 0x88F7].contains f.etype then some f else none

/-- A frame's bytes: at least 64 with the FCS. -/
def EthFrame.bytes (f : EthFrame) : List Byte :=
  let tag := match f.tci with
    | some t => beBytes 2 0x8100 ++ beBytes 2 t
    | none => []
  let bs := f.dst ++ f.src ++ tag ++ beBytes 2 f.etype ++ f.body
  let bs := bs ++ List.replicate (60 - bs.length) 0
  bs ++ wordBytes (fcs bs)

/-! IP packets. -/

/-- A packet of IP: its protocol and the data after the header. -/
structure IpPacket where
  src : IpAddr
  dst : IpAddr
  proto : Nat
  ttl : Nat
  data : List Byte
  deriving DecidableEq, Repr

/-- IPv4 without options or fragments, IPv6 without extension headers; none for another packet. -/
def openIp (f : EthFrame) : Option IpPacket :=
  let b := f.body
  if f.etype = 0x0800 then
    let len := netField b 2 2
    if netField b 0 1 = 0x45 && 20 ≤ len && len ≤ b.length && netField b 6 2 % 0x4000 = 0 && inetSum (b.take 20) = 0 then
      some { src := .v4 (BitVec.ofNat 32 (netField b 12 4)), dst := .v4 (BitVec.ofNat 32 (netField b 16 4)),
             proto := netField b 9 1, ttl := netField b 8 1, data := (b.take len).drop 20 }
    else none
  else
    let len := netField b 4 2
    if netField b 0 1 / 16 = 6 && 40 + len ≤ b.length then
      some { src := .v6 (BitVec.ofNat 128 (netField b 8 16)), dst := .v6 (BitVec.ofNat 128 (netField b 24 16)),
             proto := netField b 6 1, ttl := netField b 7 1, data := (b.drop 40).take len }
    else none

def IpAddr.bytes_ : IpAddr → List Byte
  | .v6 a => beBytes 16 a.toNat
  | .v4 a => beBytes 4 a.toNat

/-- The header and data of an IP packet as the port sends it. -/
def IpPacket.bytes (p : IpPacket) : List Byte :=
  let ends := IpAddr.bytes_ p.src ++ IpAddr.bytes_ p.dst
  match p.src with
  | .v4 _ =>
    let head := fun (sum : Nat) => beBytes 2 0x4500 ++ beBytes 2 (20 + p.data.length) ++ beBytes 4 0 ++ beBytes 1 p.ttl ++
      beBytes 1 p.proto ++ beBytes 2 sum ++ ends
    head (inetSum (head 0)) ++ p.data
  | .v6 _ => beBytes 4 0x60000000 ++ beBytes 2 p.data.length ++ beBytes 1 p.proto ++ beBytes 1 p.ttl ++ ends ++ p.data

/-- The bytes an ICMPv6 checksum also covers. -/
def pseudoHead (src dst : IpAddr) (len : Nat) : List Byte :=
  IpAddr.bytes_ src ++ IpAddr.bytes_ dst ++ beBytes 4 len ++ beBytes 4 58

/-! The port's addresses (R390, R391). -/

def State.macOf (s : State) (half : Nat) : BitVec 48 := if half = 0 then s.part.macA else s.part.macB

/-- The IPv6 link-local address of a MAC address, by the modified EUI-64 method. -/
def linkLocal (mac : BitVec 48) : BitVec 128 :=
  let m := mac.toNat
  BitVec.ofNat 128 (0xFE80 * 2 ^ 112 + (m / 2 ^ 24).xor 0x020000 * 2 ^ 40 + 0xFFFE * 2 ^ 24 + m % 2 ^ 24)

/-- The addresses a half answers for: the link-local one until the operator record is applied, then those of the record. -/
def State.ownAddrs (s : State) (half : Nat) : List IpAddr :=
  match s.eth.addresses[half]? with
  | some a => .v6 a.v6 :: (match a.v4 with
      | some (x, _) => [.v4 x]
      | none => [])
  | none => if s.eth.addresses.isEmpty then [.v6 (linkLocal (s.macOf half))] else []

/-! The port's answers. -/

/-- The reply to an ARP request for an address of the half (RFC 826). -/
def State.arpReply (s : State) (half : Nat) (f : EthFrame) : Option EthFrame :=
  let b := f.body
  let target : IpAddr := .v4 (BitVec.ofNat 32 (netField b 24 4))
  let mac := beBytes 6 (s.macOf half).toNat
  if netField b 0 6 = 0x000108000604 && netField b 6 2 = 1 && (s.ownAddrs half).contains target then
    some { f with dst := f.src, src := mac,
                  body := b.take 6 ++ beBytes 2 2 ++ mac ++ IpAddr.bytes_ target ++ (b.drop 8).take 10 }
  else none

/-- An ICMP or ICMPv6 message with its checksum; `pseudo` is what the checksum covers besides. -/
def icmp (pseudo body : List Byte) (head : List Byte) : List Byte :=
  head ++ beBytes 2 (inetSum (pseudo ++ head ++ [0, 0] ++ body)) ++ body

/-- The answer to an echo request to an address of the half, or to a neighbour solicitation for one (RFC 792, 4443, 4861). -/
def State.icmpReply (s : State) (half : Nat) (p : IpPacket) : Option IpPacket :=
  let own := s.ownAddrs half
  let d := p.data
  let kind := netField d 0 2
  if p.proto = 1 then
    if kind = 0x0800 && inetSum d = 0 && own.contains p.dst then
      some { src := p.dst, dst := p.src, proto := 1, ttl := 64, data := icmp [] (d.drop 4) [0, 0] }
    else none
  else if inetSum (pseudoHead p.src p.dst d.length ++ d) ≠ 0 then none
  else if kind = 0x8000 && own.contains p.dst then
    some { src := p.dst, dst := p.src, proto := 58, ttl := 64,
           data := icmp (pseudoHead p.dst p.src d.length) (d.drop 4) [0x81, 0] }
  else
    let target : IpAddr := .v6 (BitVec.ofNat 128 (netField d 8 16))
    if kind = 0x8700 && p.ttl = 255 && 24 ≤ d.length && own.contains target then
      let unspecified := p.src = .v6 0
      let dst : IpAddr := if unspecified then .v6 0xFF020000000000000000000000000001 else p.src
      let body := beBytes 4 (if unspecified then 0x20000000 else 0x60000000) ++ IpAddr.bytes_ target ++ [2, 1] ++
        beBytes 6 (s.macOf half).toNat
      some { src := target, dst := dst, proto := 58, ttl := 255,
             data := icmp (pseudoHead target dst (4 + body.length)) body [0x88, 0] }
    else none

/-- The address of the layer below for an answer: the asker's, or the all-nodes address for an asker without one. -/
def replyMac (f : EthFrame) (p : IpPacket) : List Byte :=
  if p.dst = .v6 0xFF020000000000000000000000000001 then beBytes 6 0x333300000001 else f.src

/-! What a frame is. -/

/-- A UDP datagram received: the half, where it comes from, the port it is addressed to and its payload. -/
structure Datagram where
  half : Nat
  src : UdpEnd
  port : Nat
  payload : List Byte
  deriving DecidableEq, Repr

/-- What the port makes of a frame: it discards it (R271), hands on a datagram, answers it, or does nothing more with it. -/
inductive Heard where
  | bad
  | datagram (d : Datagram)
  | answer (f : EthFrame)
  | quiet
  deriving DecidableEq, Repr

/-- The datagram of a UDP packet; its checksum is not judged (notes/assumptions/123.md). -/
def openUdp (half : Nat) (p : IpPacket) : Option Datagram :=
  let len := netField p.data 4 2
  if 8 ≤ len && len ≤ p.data.length then
    some { half := half, src := { ip := p.src, port := netField p.data 0 2 }, port := netField p.data 2 2,
           payload := (p.data.take len).drop 8 }
  else none

/-- The message protocol that goes with a version of IP. -/
def icmpOf (f : EthFrame) : Nat := if f.etype = 0x0800 then 1 else 58

def State.heard (s : State) (x : PortFrame) : Heard :=
  match openFrame x.bytes with
  | none => .bad
  | some f =>
    if f.etype = 0x88F7 then .quiet
    else if f.etype = 0x0806 then
      match s.arpReply x.half f with
      | some r => .answer r
      | none => .quiet
    else
      match openIp f with
      | none => .bad
      | some p =>
        if p.proto = 17 then
          match openUdp x.half p with
          | some d => .datagram d
          | none => .bad
        else if p.proto = icmpOf f then
          match s.icmpReply x.half p with
          | some q => .answer { f with dst := replyMac f q, src := beBytes 6 (s.macOf x.half).toNat, body := q.bytes }
          | none => .quiet
        else .bad

/-- The FEC figures of a frame (R296). -/
def State.countFec (s : State) (x : PortFrame) : State := (s.countEth 8 x.corrected).countEth 9 x.uncor

/-- A half hears a frame: the package is not Off and the half is up. -/
def State.hears (s : State) (x : PortFrame) : Bool := s.power.st ≠ .off && s.eth.halfUp x.half

/-- ARP_ND_ECHO_FRAME (R270, R271): the port answers, on the half that asked; a frame it does not take is counted in
ETH_RXBAD. -/
def execArpNdEchoFrame (frame : PortFrame) (s : State) : Host.Outcome State Fault Refusal :=
  done s (
    if !s.hears frame then s
    else
      let s := s.countFec frame
      match s.heard frame with
      | .bad => s.countEth 0 1
      | .answer f => { s with eth := { s.eth with frames := s.eth.frames ++ [(frame.half, f.bytes)] } }
      | .datagram _ => s
      | .quiet => s)

end Sys2Proof.Machine
end

