-- ==== Sys2Proof/Machine/Oct.lean ====
section
/-!
DEFINITION. The command transport and the Ethernet port (R270 to R295): packets received, acknowledged and sent
again, completion records, transfers that end, scale-out messages and cross-board halts.
-/

namespace Sys2Proof.Machine

/-! Packets received (R271, R275 to R282). -/

/-- An OCT packet as its datagram delivers it: the half, its source, its header and the payload as opened. -/
structure OctPacket where
  half : Nat
  src : UdpEnd
  head : OctHead
  payload : List Byte
  deriving DecidableEq, Repr

/-- The key a packet of a tenant and generation is opened with; the boot key while it holds (R389). -/
def State.keyOf (s : State) (tenant keyid : Nat) : Option (BitVec 256) :=
  if tenant = 0 && keyid = 0 && s.boot.bootKey then some 0
  else ((s.tenant tenant).keys.find? fun k => k.1 = keyid).map (·.2)

/-- Open the payload of a datagram (R275, R278): none where its tenant has no key of its KEYID, or its tag fails. -/
def State.openOct (s : State) (d : Datagram) : Option OctPacket :=
  let h := readOct d.payload
  match s.keyOf h.tenant h.keyid with
  | some k => (Config.gcmOpen k h.nonce (d.payload.take 24) (d.payload.drop 24)).map fun bs =>
      { half := d.half, src := d.src, head := h, payload := bs }
  | none => none

/-- The first packet under the current generation erases the previous one (R304). -/
def Tenant.rollKey (t : Tenant) (keyid : Nat) : Tenant :=
  if keyid = t.keyid then { t with keys := t.keys.filter fun k => k.1 = keyid } else t

/-- The peer has what ACKSEQ and ACKMAP name (R276). -/
def Session.acked (x : Session) (ackseq ackmap : Nat) : Session :=
  { x with unacked := x.unacked.filter fun p =>
      !(p.seq ≤ ackseq || (p.seq ≤ ackseq + 32 && ackmap / 2 ^ (p.seq - ackseq - 1) % 2 = 1)) }

/-- Packets held in order move into the queue (R280). -/
def Session.drain (x : Session) : Nat → Session
  | 0 => x
  | fuel + 1 =>
    match x.heldOoo.find? fun e => e.1 = x.ackseq + 1 with
    | none => x
    | some (n, ty, bs) =>
      Session.drain { x with ackseq := n, heldOoo := Tab.erase x.heldOoo n, queue := x.queue ++ [(n, ty, bs)] } fuel

/-- An acknowledgement leaves on the half the packet arrived on (R273, R276, R281); `full` refuses the packet (R282). Its SEQ
is the session's ACK counter. -/
def Session.ack (x : Session) (s : State) (dir : Nat) (p : OctPacket) (full : Bool) : Session :=
  let n := x.ackCtr + 1
  let refused := if full then some p.head.seq else none
  let a : AckPacket :=
    { half := p.half, seq := p.head.seq, full := full, dest := some p.src,
      wire := x.datagram p.head.tenant dir (s.sendKey p.head.tenant) 3 n refused [] }
  { x with acks := [a], ackCtr := n }

/-- Packets of a session that are held for their turn. -/
def Session.held (x : Session) : List (Nat × List Byte) := x.queue.map (·.2) ++ x.heldOoo.map (·.2)

/-- Every session of a tenant: the one in force, the one a HELLO opens, those with other packages. -/
def Tenant.sessions (t : Tenant) : List Session :=
  t.session.toList ++ t.opening.toList ++ t.peers.map (·.sess)

/-- Commands a tenant's queue holds (R282). -/
def Tenant.commands (t : Tenant) : Nat := (t.sessions.map fun x => x.held.countP fun e => e.1 = 1).sum

/-- Bytes a tenant has in the staging buffer (R282): segments and PEER packets held, and what a WRITE has taken and not yet
issued. -/
def Tenant.staging (t : Tenant) : Nat :=
  (t.sessions.map fun x => (x.held.map fun e => if e.1 = 1 then 0 else e.2.length).sum).sum +
    match t.xfer with
    | some x => x.data.length - 256 * x.next
    | none => 0

/-- Staging used beyond the 64 KiB reserved for each tenant. -/
def beyondReserve (n : Nat) : Nat := n - 65536

/-- Room for a packet (R282): 64 commands to a queue; segments and PEER packets in the 24 MiB of staging, 64 KiB of it
reserved for each of 256 tenants. -/
def State.hasRoom (s : State) (p : OctPacket) : Bool :=
  let t := s.tenant p.head.tenant
  if p.head.type = 1 then t.commands < 64
  else
    let used := s.tenants.foldl (fun n e => if e.1 = p.head.tenant then n else n + beyondReserve e.2.staging) 0
    used + beyondReserve (t.staging + p.payload.length) ≤ 8388608

/-- Take a packet into its session's window, and acknowledge it (R280 to R282). -/
def State.window (s : State) (dir : Nat) (p : OctPacket) (x : Session) : State × Session :=
  let n := p.head.seq
  if n ≤ x.ackseq || x.heldOoo.any fun e => e.1 = n then (s.countEth 2 1, x.ack s dir p false)
  else if x.ackseq + 256 < n || 0xFFFFFFF0 < n then (s, x)
  else if !s.hasRoom p then (s.countEth 3 1, x.ack s dir p true)
  else
    let y := { x with heldOoo := Tab.insert x.heldOoo n (p.head.type, p.payload) }
    (s, (y.drain 257).ack s dir p false)

/-- A session takes an authenticated packet: what it acknowledges goes, its half and source are those to send to (R273,
R275), and but for an ACK it enters the window. -/
def State.absorb (s : State) (dir : Nat) (p : OctPacket) (x : Session) : State × Session :=
  let y := { x.acked p.head.ackseq p.head.ackmap with half := p.half, src := some p.src }
  if p.head.type = 3 then (s, y) else s.window dir p y

/-- A HELLO that opens a session: a CMD with SEQ 1 under a nonzero SESSION (R279). -/
def opensSession (p : OctPacket) : Bool :=
  p.head.type = 1 && p.head.seq = 1 && p.head.session ≠ 0 && fieldAt p.payload 0 1 = 1

/-- The session that a HELLO is opening takes a packet while its HELLO waits, and after a refusal only ACKs and duplicates
(notes/assumptions/122.md). -/
def Session.openingTakes (x : Session) (p : OctPacket) : Bool :=
  x.id = p.head.session && (!x.queue.isEmpty || p.head.type = 3 || p.head.seq ≤ x.ackseq)

/-- A HELLO under another SESSION waits in a session of its own until the queue of the one in force is empty (R279). While an
earlier one waits it finds no room (notes/assumptions/122.md). -/
def State.takeHello (s : State) (p : OctPacket) : State :=
  let t := s.tenant p.head.tenant
  let old := match t.opening with
    | some x => if x.queue.isEmpty then x.unacked.length else 0
    | none => 0
  if t.opening.any fun x => !x.queue.isEmpty then
    let x := { Session.opened p.head.session 8 p.half with src := some p.src }
    let s := s.countEth 3 1
    s.setTenant p.head.tenant { t with opening := t.opening.map fun y => { y with acks := (x.ack s 1 p true).acks } }
  else
    let (s, y) := s.absorb 1 p (Session.opened p.head.session 8 p.half)
    (s.countEth 5 old).setTenant p.head.tenant { t with opening := some y }

/-- A packet of the host. -/
def State.takeHost (s : State) (p : OctPacket) : State :=
  let t := s.tenant p.head.tenant
  match t.session.filter fun x => x.id = p.head.session with
  | some x =>
    let (s, y) := s.absorb 1 p x
    s.setTenant p.head.tenant { t with session := some y }
  | none =>
    match t.opening.filter fun x => x.openingTakes p with
    | some x =>
      let (s, y) := s.absorb 1 p x
      s.setTenant p.head.tenant { t with opening := some y }
    | none => if opensSession p then s.takeHello p else s.countEth 0 1

/-- The session with another package that a packet names, or one whose identifier the lower package has not told yet; its DIR
is the other package's (R294). -/
def Tenant.peerOf (t : Tenant) (p : OctPacket) : Option PeerSession :=
  let from_ := fun (q : PeerSession) => q.dir ≠ p.head.dir
  (t.peers.find? fun q => from_ q && q.sess.id = p.head.session && p.head.session ≠ 0).orElse fun _ =>
    if p.head.seq = 1 && p.head.type = 7 then t.peers.find? fun q => from_ q && q.sess.id = 0 else none

/-- A packet of a PEER session (R294). -/
def State.takePeer (s : State) (p : OctPacket) : State :=
  let t := s.tenant p.head.tenant
  match t.peerOf p with
  | none => s.countEth 0 1
  | some q =>
    let (s, y) := s.absorb q.dir p { q.sess with id := p.head.session }
    s.setTenant p.head.tenant { t with
      peers := t.peers.map fun r => if r.board = q.board && r.slot = q.slot then { r with sess := y } else r }

/-! The segments of a WRITE (R287). -/

/-- Segments a transfer of n bytes has. -/
def segmentsOf (n : Nat) : Nat := (n + 8191) / 8192

/-- A DATA payload is segment j of a WRITE, as R287 expects it. -/
def segmentOk (cseq n j : Nat) (bs : List Byte) : Bool :=
  let lo := 8192 * j
  let len := if n - lo < 8192 then n - lo else 8192
  bs.take 16 = segHead cseq lo len && bs.length = 16 + len

/-- A WRITE in progress takes the segments behind it in the queue, in SEQ order; the first packet there that is not the
segment it expects ends it with BOUNDS once the units before are answered (R287). -/
def State.feedWrite (s : State) (tenant : Nat) : Nat → State
  | 0 => s
  | fuel + 1 =>
    let t := s.tenant tenant
    match t.xfer, t.turn with
    | some x, some y =>
      if !x.isWrite || x.bounds || segmentsOf x.n ≤ x.taken then s
      else
        match y.queue with
        | c :: (_, k, bs) :: q =>
          if k = 4 && segmentOk x.head.seq x.n x.taken bs then
            State.feedWrite (s.setTenant tenant { t.setTurn { y with queue := c :: q } with
              xfer := some { x with data := x.data ++ bs.drop 16, taken := x.taken + 1 } }) tenant fuel
          else s.setTenant tenant { t with xfer := some { x with n := 8192 * x.taken, bounds := true } }
        | _ => s
    | _, _ => s

/-- A transfer goes on: segments that have come are taken, and units leave as the window allows. -/
def State.feed (s : State) (tenant : Nat) : State :=
  let t := s.tenant tenant
  if t.xfer.isSome then
    ((s.feedWrite tenant ((t.turn.map fun y => y.queue.length).getD 0)).issueUnits tenant unitWindow).pumpEth
  else s

/-- The packets that R277 gives a direction, and what becomes of the others. -/
def State.takeOct (s : State) (p : OctPacket) : State :=
  let h := p.head
  let s := s.setTenant h.tenant ((s.tenant h.tenant).rollKey h.keyid)
  let toPeer := h.type = 7 || (h.type = 3 && (s.tenant h.tenant).peers.any fun q => q.sess.id = h.session && h.session ≠ 0)
  if h.ver ≠ 1 || h.rest ≠ 0 || h.len ≠ p.payload.length then s.countEth 0 1
  else if toPeer then s.takePeer p
  else if h.dir = 0 && (h.type = 1 || h.type = 3 || h.type = 4) then ((s.takeHost p).feed h.tenant).skimAll h.tenant
  else s.countEth 0 1

/-- A UDP datagram that a half has received (R271, R275, R278). -/
def State.takeDatagram (s : State) (d : Datagram) : State :=
  if d.port = 319 || d.port = 320 then s
  else if d.port ≠ s.eth.octport || d.payload.length < 40 then s.countEth 0 1
  else
    match s.openOct d with
    | none => s.countEth 1 1
    | some p => s.takeOct p

/-- OCT_PACKET_RECEIVE (R271, R275 to R282, R304): a frame whose datagram may hold an OCT packet. -/
def execOctPacketReceive (p : PortFrame) (s : State) : Host.Outcome State Fault Refusal :=
  done s (
    if !s.hears p then s
    else
      let s := s.countFec p
      match s.heard p with
      | .bad => s.countEth 0 1
      | .datagram d => s.takeDatagram d
      | .answer _ => s
      | .quiet => s)

/-! Packets sent again (R283). -/

/-- One step of R283 on a session: what changes in it, packets sent again and packets lost. A packet leaves again unchanged, on
the half R273 gives. -/
def Session.retry (x : Session) (e : Eth) (seq : Nat) (now : DWord) : Option (Session × Nat × Nat) :=
  match x.unacked.find? fun p => p.seq = seq && reached now (p.sentAt + nsUnits (x.ackt * 1000)) with
  | none => none
  | some p =>
    if p.sends < 16 then
      let again := { p with sends := p.sends + 1, sentAt := now, half := e.sendHalf x.half }
      some ({ x with unacked := x.unacked.map fun q => if q.seq = seq then again else q }, 1, 0)
    else some ({ x with unacked := [], lost := true }, 0, x.unacked.length)

/-- The first PEER session that has to send a packet again. -/
def Tenant.retryPeer (t : Tenant) (e : Eth) (seq : Nat) (now : DWord) : Option (PeerSession × Session × Nat × Nat) :=
  t.peers.findSome? fun q => (q.sess.retry e seq now).map fun r => (q, r)

/-- A tenant whose first session with such a packet has sent it again: the one in force, the one a HELLO opens, then those with
other packages. -/
def Tenant.retry (t : Tenant) (e : Eth) (seq : Nat) (now : DWord) : Option (Tenant × Nat × Nat) :=
  match t.session.bind fun x => x.retry e seq now with
  | some (y, r) => some ({ t with session := some y }, r)
  | none =>
    match t.opening.bind fun x => x.retry e seq now with
    | some (y, r) => some ({ t with opening := some y }, r)
    | none => (t.retryPeer e seq now).map fun (q, y, r) =>
        ({ t with peers := t.peers.map fun p => if p.board = q.board && p.slot = q.slot then { p with sess := y } else p }, r)

/-- OCT_RETRANSMIT (R283). -/
def execOctRetransmit (tenant seq : Nat) (s : State) : Host.Outcome State Fault Refusal :=
  done s (
    match (s.tenant tenant).retry s.eth seq s.clock.sid with
    | some (t, again, lost) => ((s.setTenant tenant t).countEth 4 again).countEth 5 lost
    | none => s)

/-! Transfers that end (R286 to R290). -/

/-- End a tenant's transfer: the check value is deposited when asked for and the status is OK (R290). -/
def State.endXfer (s : State) (tenant : Nat) (x : Xfer) (st : Status) (detail : Nat) (bs : List Byte) : State :=
  let v := checkValue (s.sharedAddr x.die x.cluster x.addr) (BitVec.ofNat 32 x.tseq) bs
  let chk := if x.chk && st = .ok then some v else none
  let t := s.tenant tenant
  let s := s.setTenant tenant { t with xfer := none, chk := chk.getD t.chk,
                                       chkseq := if chk.isSome then BitVec.ofNat 32 x.tseq else t.chkseq }
  (s.complete x.head st chk x.tseq detail []).touch

/-- The status a WRITE completes with (R287): a segment that is not the one expected ends it with BOUNDS. -/
def Xfer.writeStatus (x : Xfer) : Status :=
  if x.bounds then .bounds else if x.anyFault then .fault else if x.anyDark then .dark else .ok

/-- A WRITE has taken every segment, or ends at the one that is none, and every unit is answered. -/
def Xfer.written (x : Xfer) : Bool :=
  x.isWrite && segmentsOf x.n ≤ x.taken && unitsOf x.n ≤ x.next && x.waiting.isEmpty

/-- OCT_WRITE_COMPLETE (R287). -/
def execOctWriteComplete (tenant : Nat) (s : State) : Host.Outcome State Fault Refusal :=
  done s (
    match (s.tenant tenant).xfer with
    | none => s
    | some x =>
      if x.written then s.endXfer tenant x x.writeStatus x.refused x.data else s)

/-- OCT_READ_COMPLETE (R288). -/
def execOctReadComplete (tenant : Nat) (s : State) : Host.Outcome State Fault Refusal :=
  done s (
    match (s.tenant tenant).xfer with
    | none => s
    | some x =>
      if x.isWrite || !x.waiting.isEmpty then s
      else
        match x.firstBad with
        | some (u, st) => s.endXfer tenant x (Status.ofCode st) (256 * u) []
        | none =>
          if unitsOf x.n ≤ x.next && unitsOf x.n ≤ 32 * x.sent then
            s.endXfer tenant x .ok 0 ((List.range (unitsOf x.n)).map fun u => Tab.get [] x.got u).flatten
          else s)

/-! Scale-out (R291 to R295). -/

def descOf (bs : List Byte) : ScaleDesc :=
  let n := leNat (bs.take 16)
  { dest := n % 64, apt := n / 2 ^ 8 % 256, off := n / 2 ^ 16 % 2 ^ 32, nfl := n / 2 ^ 48 % 2 ^ 16,
    flag := n / 2 ^ 64 % 256, tcl := n / 2 ^ 72 % 32, tdie := n / 2 ^ 77 % 2 }

/-- The package a destination index names: slot and board index (R291). -/
def Binding.destination (b : Binding) (dest : Nat) : Option (Nat × Nat) :=
  match b.xout[dest]? with
  | some p => b.packages[p]?
  | none => none

/-- Complete messages of the egress buffer leave, a tenant's in order (R291, R292). -/
def State.sendMessage (s : State) (tenant : Nat) : Option State :=
  let mine := s.eth.egress.filter fun f => f.tenant = tenant
  match mine with
  | [] => none
  | d :: rest =>
    let n := descFlits d.data
    if rest.length < n then none
    else
      let others := s.eth.egress.filter fun f => f.tenant ≠ tenant
      let s := { s with eth := { s.eth with egress := others ++ rest.drop n } }
      let body := (d.data.take 32) ++ ((rest.take n).map (·.data)).flatten
      match (s.tenant tenant).binding with
      | none => some s
      | some b =>
        match b.destination (descOf d.data).dest with
        | none => some s
        | some (slot, board) => some (s.sendPeer tenant board slot body)

/-- SCALEOUT_EGRESS: the Ethernet station of die 0 sends the next whole message. -/
def execScaleoutEgress (die : Nat) (s : State) : Host.Outcome State Fault Refusal :=
  done s (
    if die ≠ 0 || s.power.st = .off || !(s.eth.upA || s.eth.upB) then s
    else (((s.eth.egress.map (·.tenant)).eraseDups.findSome? fun t => s.sendMessage t).getD s))

/-- Take the oldest message, or the oldest halt, from the PEER sessions' queues: a halt is shorter than a
descriptor. -/
def popPeer (msg : Bool) : List PeerSession → List PeerSession
  | [] => []
  | q :: qs =>
    match q.sess.queue with
    | (_, _, bs) :: rest =>
      if decide (32 ≤ bs.length) = msg then { q with sess := { q.sess with queue := rest } } :: qs
      else q :: popPeer msg qs
    | [] => q :: popPeer msg qs

/-- The lowest number no message in progress has. -/
def freeMessage (ms : List InMsg) : Nat :=
  ((List.range (ms.length + 1)).find? fun n => !ms.any fun m => m.id = n).getD 0

/-- SCALEOUT_RECEIVE (R293): the message is checked and its units leave the Ethernet station. -/
def execScaleoutReceive (tenant : Nat) (d : ScaleDesc) (data : List Byte) (s : State) :
    Host.Outcome State Fault Refusal :=
  done s (
    if s.power.st = .off then s
    else
      let t := s.tenant tenant
      let s := s.setTenant tenant { t with peers := popPeer true t.peers }
      let t := s.tenant tenant
      match t.aperture d.apt with
      | none => s.countEth 7 1
      | some a =>
        let len := 256 * d.nfl
        if d.nfl = 0 || 32 < d.nfl || d.off % 256 ≠ 0 || a.size * 4096 < d.off + len || data.length ≠ len then
          s.countEth 7 1
        else
          let id := freeMessage t.inMsgs
          let units := List.range d.nfl
          let ps : List Packet := units.map fun u =>
            { daddr := s.sharedAddr a.die a.cluster (a.lo + d.off + 256 * u), op := 1, len := 256, trl := false,
              ep := 0, vc := 0, tenant := tenant, srcid := 40, spkg := s.slot, sdie := 0,
              tag := 32768 + id % 1024 * 32 + u, status := 0, chk := false, data := (data.drop (256 * u)).take 256 }
          let s := s.setTenant tenant
            { t with inMsgs := { id := id, desc := d, waiting := units, failed := false } :: t.inMsgs }
          ({ s with eth := { s.eth with inbox := s.eth.inbox ++ ps } }).pumpEth)

/-- PEER_HALT_RECEIVE (R295, R448): the plate halts with the status it carries and the halt spreads on this
board; recorded under cause 0x42. -/
def execPeerHaltReceive (tenant slot board exp status : Nat) (s : State) : Host.Outcome State Fault Refusal :=
  done s (
    if s.power.st = .off then s
    else
      let t := s.tenant tenant
      let s := s.setTenant tenant { t with peers := popPeer false t.peers }
      if t.st ≠ .running then s
      else
        let s := s.record 0 4 0x42 (some tenant) 0x1F (s.beatNow tenant)
          (BitVec.ofNat 64 (slot % 16 + board * 16 + status % 256 * 65536 + exp % 4294967296 * 16777216)) true
        let s := s.noteRecord 0 [tenant]
        s.haltRun tenant (s.beatNow tenant) (Status.ofCode status) (s.fseq 0) false)

/-! The port (R270, R273, R274, R433). -/

/-- ETH_LINK_DOWN: a half, or in 1.6 Tb/s mode the port, goes down. -/
def execEthLinkDown (half : Nat) (s : State) : Host.Outcome State Fault Refusal :=
  done s (
    if !s.eth.dual then { s with eth := { s.eth with upA := false, upB := false } }
    else if half = 0 then { s with eth := { s.eth with upA := false } }
    else { s with eth := { s.eth with upB := false } })

/-- REF_ETH_LOSS (R433): the port goes down; the package stays in its state. -/
def execRefEthLoss (s : State) : Host.Outcome State Fault Refusal :=
  done s { s with pins := { s.pins with refEth := false }, eth := { s.eth with upA := false, upB := false } }

/-- REF_ETH_RETURN (R274, R433): the port retrains, and comes up with ETH_RETRAIN_DONE. -/
def execRefEthReturn (s : State) : Host.Outcome State Fault Refusal :=
  done s { s with pins := { s.pins with refEth := true } }

end Sys2Proof.Machine
end

