-- ==== Sys2Proof/Machine/Regs.lean ====
section
/-!
DEFINITION. Control-space reads and writes (R8 to R12, R62, R447), block by block: each read function answers
the word an agent sees at an offset of its block and the state after the read, each write function the state
and the status.
-/

namespace Sys2Proof.Machine

/-! Agents (R214, R447, R449). -/

/-- AGENT as a number: the kind and the tenant. -/
def agentCode (a : Agent) : Nat := agentKindCode a.kind + 4 * a.tenant

/-- The keeper, Almanac, or the operator on this package's own session (R449). -/
def privileged (a : Agent) : Bool := mayWriteLinks a

/-- The tenant whose registers a tenant-select shows to an agent (R63). -/
def shownTenant (a : Agent) (sel : Word) : Nat := if privileged a then sel.toNat % 256 else a.tenant

/-- Whether an agent sees the registers of a context (R175). -/
def seesCtx (a : Agent) (k : Ctx) : Bool := privileged a || (isHostOf a k.tenant && k.valid)

/-- An agent's copy of a select or window-address register (R447). -/
def State.selOf (s : State) (a : Agent) (site off : Nat) : Word :=
  Tab.get 0 s.sel (regKey site off * 1024 + agentCode a)

def State.setSel (s : State) (a : Agent) (site off : Nat) (v : Word) : State :=
  { s with sel := Tab.set 0 s.sel (regKey site off * 1024 + agentCode a) v }

/-- What an agent latched at a register (R62); nothing latched reads zero, the registers' reset value. -/
def State.latched (s : State) (a : Agent) (site off i : Nat) : Word :=
  (Tab.get [] s.latch (regKey site off * 1024 + agentCode a)).getD i 0

def State.setLatch (s : State) (a : Agent) (site off : Nat) (ws : List Word) : State :=
  { s with latch := Tab.set [] s.latch (regKey site off * 1024 + agentCode a) ws }

/-- A read that latches a value of several words and returns the first (R62). -/
def State.latchRead (s : State) (a : Agent) (site off : Nat) (ws : List Word) : State × Word :=
  (s.setLatch a site off ws, ws.headD 0)

def word32 (n : Nat) : Word := BitVec.ofNat 32 n

/-- The two words of a 64-bit value, low first. -/
def halves (d : DWord) : List Word := [word32 d.toNat, word32 (d.toNat / 4294967296)]

/-- A bit of a register at position k. -/
def flagBit (c : Bool) (k : Nat) : Nat := if c then 2 ^ k else 0

/-- The index of an offset in an array of n registers with a stride. -/
def slotIn (o base n stride : Nat) : Option Nat :=
  if base ≤ o && o < base + n * stride && (o - base) % stride = 0 then some ((o - base) / stride) else none

/-- A write of a register whose writable fields are all RWK (R11); `cur` is the value compared (notes/assumptions/113.md). -/
def State.keeperWrite (s : State) (a : Agent) (cur v mask : Word) (f : State → Word → State) : State × Status :=
  if a.kind = .keeper then (f s ((cur &&& ~~~mask) ||| (v &&& mask)), .ok)
  else (s, if (cur ^^^ v) &&& mask = 0 then .ok else .auth)

/-! SEQ (R174, R175, R451). -/

/-- Engine state of the context running (R174). -/
def State.engine (s : State) (die p : Nat) (k : Ctx) : Nat :=
  if (s.liveBeat k.tenant (regionKey die p)).isNone then 0
  else if k.ended then 3 else if k.wait.isSome then 2 else 1

def State.readSeq (s : State) (a : Agent) (die p o : Nat) : State × Word :=
  let c := s.cluster die p
  let n := (s.selOf a (clSite die p) 0x0008).toNat % 16
  let k := c.ctx n
  let see := seesCtx a k
  let show_ := fun (w : Word) => (s, if see then w else 0)
  let lc := fun (i : Nat) => Tab.get 0 k.lc i % 65536
  match o with
  | 0x000 => (s, word32 (256 + 64 * 2 ^ 9 + 64 * 2 ^ 16 + 16 * 2 ^ 23 + 4 * 2 ^ 28))
  | 0x004 =>
    match c.running with
    | none => (s, 0)
    | some r =>
      let e := s.engine die p (c.ctx r)
      (s, word32 (r + flagBit (e ≠ 0) 4 + e * 32))
  | 0x008 => (s, word32 n)
  | 0x00C => show_ (word32 (k.tenant % 256 + flagBit k.valid 8))
  | 0x010 => show_ (word32 (k.lbase % 256 + k.lsize % 512 * 256))
  | 0x014 => show_ (word32 (k.dbase % 256 + k.dsize % 512 * 256))
  | 0x018 =>
    let armed := (List.range 4).foldl (fun (m : Nat) i => m + flagBit (Tab.get false k.armed i) (17 + i)) 0
    show_ (word32 (k.word % 65536 + flagBit k.ended 16 + armed))
  | 0x01C => show_ (word32 (lc 0 + lc 1 * 65536))
  | 0x020 => show_ (word32 (lc 2 + lc 3 * 65536))
  | 0x024 => if see then (s.modCluster die p fun c => c.setCtx n { k with held := 0 }, k.held) else (s, 0)
  | 0x028 => if see then (s.modCluster die p fun c => c.setCtx n { k with pcoll := 0 }, k.pcoll) else (s, 0)
  | _ =>
    match slotIn o 0x100 64 4 with
    | some i => show_ (Tab.get 0 k.params i)
    | none => (s, 0)

/-- A window value: BASE [7:0], SIZE [16:8] in KiB; none when it runs past the end of its store (R451). -/
def windowOf (v : Word) (store : Nat) : Option (Nat × Nat) :=
  let base := bitsOf v 0 8
  let size := bitsOf v 8 9
  if store < base + size || store ≤ base then none else some (base, size)

def State.writeSeq (s : State) (a : Agent) (die p o : Nat) (v : Word) : State × Status :=
  let c := s.cluster die p
  let site := clSite die p
  let n := (s.selOf a site 0x0008).toNat % 16
  let k := c.ctx n
  let window := fun (base size store : Nat) (f : Nat → Nat → Ctx) =>
    let cur := word32 (base % 256 + size % 512 * 256)
    if a.kind = .keeper then
      match windowOf v store with
      | some (b, z) => (s.setCluster die p (c.setCtx n (f b z)), Status.ok)
      | none => (s, .bounds)
    else s.keeperWrite a cur v 0x1FFFF fun s _ => s
  match o with
  | 0x008 => (s.setSel a site 0x0008 (v &&& 0xF), .ok)
  | 0x00C => s.keeperWrite a (word32 (k.tenant % 256 + flagBit k.valid 8)) v 0x1FF fun s w =>
      s.setCluster die p (c.setCtx n { k with tenant := bitsOf w 0 8, valid := w.getLsbD 8 })
  | 0x010 => window k.lbase k.lsize 256 fun b z => { k with lbase := b, lsize := z }
  | 0x014 => window k.dbase k.dsize 64 fun b z => { k with dbase := b, dsize := z }
  | _ => (s, .ok)

/-! MXA and the converter (R86, R109). -/

/-- The tenant whose plate is bound on a cluster: that of the context running, else of the first assigned. -/
def Cluster.boundTenant (c : Cluster) : Option Nat :=
  match c.running with
  | some r => some (c.ctx r).tenant
  | none => (c.ctxs.find? fun e => e.2.valid).map (·.2.tenant)

def State.boundHere (s : State) (c : Cluster) : Option Binding :=
  match c.boundTenant with
  | some t => (s.tenant t).binding
  | none => none

def State.readMxa (s : State) (a : Agent) (die p arr o : Nat) : State × Word :=
  let c := s.cluster die p
  let x := c.arr arr
  let now := (s.regionOf die p).beat
  let cat2 := match s.boundHere c with
    | some b => b.cat = 2
    | none => false
  let seed := match s.boundHere c with
    | some b => b.seed
    | none => 0
  let site := clSite die p
  let base := 0x1000 + 0x1000 * arr
  let upd := fun (y : Arr) => s.setCluster die p (c.setArr arr y)
  match o with
  | 0x000 => (s, word32 (32 + 2048 * 256 + 2 ^ 20))
  | 0x004 => (s, word32 (flagBit (now < x.feedUntil) 0 + flagBit (now < x.drainUntil) 1 +
      flagBit x.bank0.valid 2 + flagBit x.bank1.valid 3 + x.bank0.fmt % 16 * 16 + x.bank1.fmt % 16 * 256 +
      flagBit x.bank0.transposed 12 + flagBit x.bank1.transposed 13 + flagBit cat2 14))
  | 0x008 => (s, x.flags.setWidth 32)
  | 0x00C => s.latchRead a site (base + 0xC) (halves x.cols)
  | 0x010 => (s, s.latched a site (base + 0xC) 1)
  | 0x100 => (s, x.cfg)
  | 0x104 => (s, word32 seed.toNat)
  | 0x108 => (s, word32 (seed.toNat / 4294967296))
  | 0x10C => (s, x.tab)
  | 0x110 => (upd { x with nan := 0 }, x.nan)
  | 0x114 => (upd { x with sat := 0 }, x.sat)
  | _ => (s, 0)

def State.writeMxa (s : State) (die p arr o : Nat) (v : Word) : State × Status :=
  let c := s.cluster die p
  let x := c.arr arr
  if o = 0x008 then (s.setCluster die p (c.setArr arr { x with flags := x.flags &&& ~~~(v.setWidth 4) }), .ok)
  else (s, .ok)

/-! VEC and SEL (R148). -/

/-- A read of a core's VEC block; BUSY is the core's own (notes/assumptions/125.md). -/
def State.readVec (s : State) (die p core o : Nat) : State × Word :=
  let c := s.cluster die p
  let x := c.vcore core
  let upd := fun (y : VCore) => s.setCluster die p (c.setVcore core y)
  match o with
  | 0x000 => (s, word32 (128 + 32 * 2 ^ 8 + 256 * 2 ^ 14 + 64 * 2 ^ 23))
  | 0x004 => (s, x.flags.setWidth 32)
  | 0x200 => (s, word32 (c.xbv % 16 + flagBit ((s.regionOf die p).beat < x.selUntil) 4))
  | 0x204 => (upd { x with nanfill := 0 }, x.nanfill)
  | 0x208 => (upd { x with goor := 0 }, x.goor)
  | 0x20C => (upd { x with sovf := 0 }, x.sovf)
  | 0x210 => (upd { x with sdrop := 0 }, x.sdrop)
  | 0x214 => (upd { x with sbad := 0 }, x.sbad)
  | 0x218 => (s, word32 (x.placed % 8192 + x.fbused % 8192 * 8192))
  | _ => (s, 0)

def State.writeVec (s : State) (die p core o : Nat) (v : Word) : State × Status :=
  let c := s.cluster die p
  let x := c.vcore core
  if o = 0x004 then (s.setCluster die p (c.setVcore core { x with flags := x.flags &&& ~~~(v.setWidth 4) }), .ok)
  else (s, .ok)

/-! SPAD (R194). -/

def State.readSpad (s : State) (die p o : Nat) : State × Word :=
  let c := s.cluster die p
  let i := o / 4 % 4
  let x := c.slice i
  let rc := fun (n : Nat) (w : Word) (f : Word → Slice → Slice) =>
    s.clearRc (clSite die p) (0x5000 + 16 * n + 4 * i) w 0 fun s v => s.modSlice die p i (f v)
  if o = 0x000 then (s, 0x01000000)
  else if o = 0x004 then (s, word32 (4 + 32 * 16 + 16 * 1024))
  else if o = 0x008 then (s, word32 (s.scrubInterval die p))
  else match o / 16 with
    | 1 => (s, word32 (x.target.code + x.st.code * 4 + flagBit x.held.isSome 5 + flagBit x.dto 6))
    | 2 => (s, word32 (x.rows % 256 + x.cols % 64 * 256 + flagBit x.fail 14))
    | 3 => rc 3 x.ceCount fun v x => { x with ceCount := v }
    | 4 => rc 4 x.ueCount fun v x => { x with ueCount := v }
    | 5 => (s, word32 (x.ueaddr % 16777216))
    | 6 => rc 6 x.darkCount fun v x => { x with darkCount := v }
    | _ => (s, 0)

def State.writeSpad (s : State) (a : Agent) (die p o : Nat) (v : Word) : State × Status :=
  if o = 0x008 then
    s.keeperWrite a (word32 (s.scrubInterval die p)) v 0xFFFF fun s w => s.setReg (clSite die p) 0x5008 256 w
  else match slotIn o 0x010 4 4 with
    | some i => s.writeSpadPwr a die p i v
    | none => (s, .ok)

/-! BNET (R216, R217). -/

/-- The ephemeris entry at an agent's ENTRY, as two words. -/
def State.entryWords (s : State) (a : Agent) (die p : Nat) : List Word :=
  let e := (s.router die p).entry (bitsOf (s.selOf a (clSite die p) 0x6008) 0 12)
  [e.setWidth 32, word32 (e.toNat / 4294967296)]

/-- The routing-table key and version an agent's RTADDR names. -/
def State.rtIndex (s : State) (a : Agent) (die p : Nat) : Nat := bitsOf (s.selOf a (clSite die p) 0x6014) 0 8

def State.readBnet (s : State) (a : Agent) (die p o : Nat) : State × Word :=
  let site := clSite die p
  let d := s.dieOf die
  match o with
  | 0x000 =>
    let lanes := (List.range 10).foldl (fun (m : Nat) k => m + flagBit (lanePresent die p k) k) 0
    (s, word32 (lanes + flagBit (p < 6 || 18 ≤ p) 10 + flagBit (isEthRouter die p) 11 + p * 4096))
  | 0x004 =>
    (s, word32 (s.pstate die p + flagBit d.epoch 2 + flagBit d.draining 3) ||| (s.reg site 0x6004 0 &&& 16))
  | 0x008 => (s, s.selOf a site 0x6008)
  | 0x00C => s.latchRead a site 0x600C (s.entryWords a die p)
  | 0x010 => (s, s.latched a site 0x600C 1)
  | 0x014 => (s, s.selOf a site 0x6014)
  | 0x018 => (s, (Tab.get 15 (s.router die p).rt (s.rtIndex a die p)).setWidth 32)
  | 0x020 => s.clearReg site 0x6020
  | 0x024 => s.clearReg site 0x6024
  | 0x028 => s.clearReg site 0x6028
  | 0x02C => s.clearReg site 0x602C
  | 0x030 => s.latchRead a site 0x6030 (halves (BitVec.ofNat 64 (s.sflit die p)))
  | 0x034 => (s, s.latched a site 0x6030 1)
  | _ =>
    match slotIn o 0x040 16 4, slotIn o 0x080 16 4, slotIn o 0x0C0 16 4 with
    | some n, _, _ => (s, s.reg site (0x6040 + 4 * n) 0)
    | _, some n, _ =>
      let c := s.partition die p n
      let active := c.valid && (s.liveBeat c.tenant (regionKey die p)).isSome
      (s, s.reg site (0x6080 + 4 * n) 0 ||| word32 (flagBit active 8))
    | _, _, some n => (s, s.reg site (0x60C0 + 4 * n) 0)
    | _, _, _ => (s, 0)

/-- A commit lies inside the range of a valid partition whose tenant is not Running (R217). -/
def State.mayCommit (s : State) (die p entry : Nat) : Bool :=
  (List.range 16).any fun n =>
    let c := s.partition die p n
    c.valid && c.base ≤ entry && entry < c.base + c.period && (s.tenant c.tenant).st ≠ .running

/-- A write of BNET_EWDATA_HI: the commit and the increment of ENTRY (R217). What the loader wrote is kept for
the readback of R412. -/
def State.commitEntry (s : State) (a : Agent) (die p : Nat) (v : Word) : State × Status :=
  let site := clSite die p
  let n := bitsOf (s.selOf a site 0x6008) 0 12
  if s.mayCommit die p n then
    let e : BitVec 40 := BitVec.ofNat 40 ((s.reg site 0x600C 0).toNat + bitsOf v 0 8 * 4294967296)
    let r := s.router die p
    let s := s.setRouter die p { r with eph := Tab.set 0xFFFFFFFFFF r.eph n e,
                                        written := Tab.set 0xFFFFFFFFFF r.written n e }
    (s.setSel a site 0x6008 (word32 ((n + 1) % 4096)), .ok)
  else (s, .busy)

/-- A keeper write of BNET_RTDATA: refused for the current version and during a drain (R209). -/
def State.writeRtdata (s : State) (a : Agent) (die p : Nat) (v : Word) : State × Status :=
  let i := s.rtIndex a die p
  let r := s.router die p
  let d := s.dieOf die
  if a.kind = .keeper && (d.draining || i / 128 = epochBit d.epoch) then (s, .busy)
  else s.keeperWrite a ((Tab.get 15 r.rt i).setWidth 32) v 0x1F fun s w =>
    s.setRouter die p { r with rt := Tab.set 15 r.rt i (w.setWidth 5) }

def State.writeBnet (s : State) (a : Agent) (die p o : Nat) (v : Word) : State × Status :=
  let site := clSite die p
  let loader := a.kind = .keeper || a.kind = .mgmt
  let part := fun (off : Nat) (mask : Word) =>
    s.keeperWrite a (s.reg site off 0) v mask fun s w => s.setReg site off 0 w
  match o with
  | 0x004 => (if v.getLsbD 4 && !(s.justSet site 0x6004).getLsbD 4 then s.setReg site 0x6004 0 0 else s, .ok)
  | 0x008 => if loader then (s.setSel a site 0x6008 (v &&& 0xFFF), .ok) else (s, .auth)
  | 0x00C => if loader then (s.setReg site 0x600C 0 v, .ok) else (s, .auth)
  | 0x010 => if loader then s.commitEntry a die p v else (s, .auth)
  | 0x014 => s.keeperWrite a (s.selOf a site 0x6014) v 0xFF fun s w => s.setSel a site 0x6014 w
  | 0x018 => s.writeRtdata a die p v
  | _ =>
    match slotIn o 0x040 16 4, slotIn o 0x080 16 4, slotIn o 0x0C0 16 4 with
    | some n, _, _ => part (0x6040 + 4 * n) 0x1FFFFFF
    | _, some n, _ => part (0x6080 + 4 * n) 0xFF
    | _, _, some n => part (0x60C0 + 4 * n) 0x03FF03FF
    | _, _, _ => (s, .ok)

/-! SNET (R240, R241). -/

/-- The physical flag an agent's SNET_FADDR names (R241). -/
def State.namedFlag (s : State) (a : Agent) (die p : Nat) : Option Nat :=
  let n := bitsOf (s.selOf a (clSite die p) 0x7020) 0 8
  if privileged a then some n else (s.cluster die p).flagIn a.tenant n

def Flag.cfgWord (f : Flag) : Word :=
  word32 (f.th % 65536 + flagBit f.opened 16 + f.sharer % 256 * 2 ^ 17 + flagBit f.sharen 25)

def waitWord (k : Ctx) : Word :=
  match k.wait with
  | none => 0
  | some w => word32 (w.flag % 256 + 256 + flagBit w.opened 9 + flagBit (w.opened && w.latch) 10 + flagBit w.clear 11)

def State.readSnet (s : State) (a : Agent) (die p o : Nat) : State × Word :=
  let c := s.cluster die p
  let site := clSite die p
  let n := (s.selOf a site 0x7004).toNat % 16
  let k := c.ctx n
  let see := seesCtx a k
  let show_ := fun (w : Word) => (s, if see then w else 0)
  match o with
  | 0x000 => (s, word32 (256 + 16 * 2 ^ 9 + 256 * 2 ^ 14 + 64 * 2 ^ 23))
  | 0x004 => (s, word32 n)
  | 0x008 => show_ (word32 (k.fbase % 256 + k.fcount % 512 * 256))
  | 0x00C => show_ (word32 (k.bbase % 256 + k.bcount % 512 * 256))
  | 0x010 => show_ (waitWord k)
  | 0x014 => if see then
      s.clearRc site (ctxOff 0x7014 n) k.tout 0 fun s v =>
        s.modCluster die p fun c => c.setCtx n { c.ctx n with tout := v }
    else (s, 0)
  | 0x020 => (s, s.selOf a site 0x7020)
  | 0x024 =>
    match s.namedFlag a die p with
    | some f => (s, word32 (flagBit (c.flag f).s 0 + (c.flag f).c % 65536 * 2))
    | none => (s, 0)
  | 0x028 =>
    match s.namedFlag a die p with
    | some f => (s, (c.flag f).cfgWord)
    | none => (s, 0)
  | _ => (s, 0)

def State.writeSnet (s : State) (a : Agent) (die p o : Nat) (v : Word) : State × Status :=
  let c := s.cluster die p
  let site := clSite die p
  let n := (s.selOf a site 0x7004).toNat % 16
  let k := c.ctx n
  match o with
  | 0x004 => (s.setSel a site 0x7004 (v &&& 0xF), .ok)
  | 0x008 => s.keeperWrite a (word32 (k.fbase % 256 + k.fcount % 512 * 256)) v 0x1FFFF fun s w =>
      s.setCluster die p (c.setCtx n { k with fbase := bitsOf w 0 8, fcount := bitsOf w 8 9 })
  | 0x00C => s.keeperWrite a (word32 (k.bbase % 256 + k.bcount % 512 * 256)) v 0x1FFFF fun s w =>
      s.setCluster die p (c.setCtx n { k with bbase := bitsOf w 0 8, bcount := bitsOf w 8 9 })
  | 0x020 => (s.setSel a site 0x7020 (v &&& 0xFF), .ok)
  | 0x028 =>
    let f := s.namedFlag a die p
    let x := match f with
      | some i => c.flag i
      | none => Flag.init
    let cur := match f with
      | some _ => x.cfgWord
      | none => 0
    s.keeperWrite a cur v 0x3FFFFFF fun s w =>
      match f with
      | some i =>
        let th := if bitsOf w 0 16 = 0 then 1 else bitsOf w 0 16
        s.setCluster die p (c.setFlag i { x with th := th, opened := w.getLsbD 16, sharer := bitsOf w 17 8,
                                                 sharen := w.getLsbD 25 })
      | none => s
  | _ => (s, .ok)

/-! CHK (R297). -/

def State.readChk (s : State) (a : Agent) (die p o : Nat) : State × Word :=
  let n := (s.selOf a (clSite die p) 0x8004).toNat % 16
  let k := (s.cluster die p).ctx n
  let see := seesCtx a k
  match o with
  | 0x000 => (s, word32 (8 + 16 * 16))
  | 0x004 => (s, word32 n)
  | 0x008 => (s, if see then k.chkHead else 0)
  | _ =>
    if !see || o < 0x100 || 0x180 ≤ o then (s, 0)
    else
      let r := Tab.get ChkRec.init k.chk ((o - 0x100) / 16)
      match o / 4 % 4 with
      | 0 => (s, r.tseq)
      | 1 => (s, r.val)
      | 2 => (s, word32 (r.nfl % 131072))
      | _ => (s, word32 (flagBit r.valid 0 + flagBit r.recv 1))

def State.writeChk (s : State) (a : Agent) (die p o : Nat) (v : Word) : State × Status :=
  (if o = 0x004 then s.setSel a (clSite die p) 0x8004 (v &&& 0xF) else s, .ok)

/-! CLK (R381). -/

/-- GMAX of R380. -/
def State.gmax (s : State) : Nat :=
  800 - (List.range 8).foldl (fun m r => if m < s.part.vOf r 1 then s.part.vOf r 1 else m) 0

def State.readClk (s : State) (die o : Nat) : State × Word :=
  let r := die * 4 + o / 4 % 4
  let x := s.region r
  match o with
  | 0x000 => (s, word32 (850 + 950 * 2 ^ 10 + 17 * 2 ^ 20 + 12 * 2 ^ 25))
  | 0x004 => (s, s.reg (dieSite die) 0x0004 1)
  | 0x008 => (s, s.reg (dieSite die) 0x0008 16)
  | 0x00C => (s, s.clkGov die)
  | 0x010 => (s, word32 (flagBit s.power.emergency 0 + s.power.duty % 16 * 2 + s.power.causes % 8 * 32))
  | _ =>
    match o / 16 with
    | 2 => (s, word32 (x.k % 32 + flagBit x.lock 5 + flagBit x.gated 6 + flagBit x.pendUp 7))
    | 3 => (s, word32 (x.smin % 64 + x.snow % 64 * 64 + x.mon % 16 * 4096))
    | 4 => s.clearRc (dieSite die) o x.short 0 fun s v => s.setRegion r { s.region r with short := v }
    | 5 => s.clearRc (dieSite die) o (word32 (x.worst % 16777216)) 0 fun s v =>
      s.setRegion r { s.region r with worst := v.toNat }
    | _ => (s, 0)

/-- A keeper write of CLK_GOV: GUARD is stored no higher than GMAX (R380), and the die's voltage follows it
(R366). -/
def State.writeGov (s : State) (a : Agent) (die : Nat) (v : Word) : State × Status :=
  s.keeperWrite a (s.clkGov die) v 0x3FFFFFF fun s w =>
    let guard := if s.gmax < bitsOf w 18 8 then s.gmax else bitsOf w 18 8
    let s := s.setReg (dieSite die) 0x000C 0x3CE183 ((w &&& 0x3FFFF) ||| word32 (guard * 2 ^ 18))
    if s.power.st = .active || s.power.st = .poised then s.setRail die (s.railNeed die) else s

def State.writeClk (s : State) (a : Agent) (die o : Nat) (v : Word) : State × Status :=
  match o with
  | 0x004 => s.keeperWrite a (s.reg (dieSite die) 0x0004 1) v 1 fun s w => s.setReg (dieSite die) 0x0004 1 w
  | 0x008 => s.keeperWrite a (s.reg (dieSite die) 0x0008 16) v 0x1F fun s w => s.setReg (dieSite die) 0x0008 16 w
  | 0x00C => s.writeGov a die v
  | _ => (s, .ok)

/-! PWR (R382). -/

/-- The target of a rail of PWR_RAIL in mV: the last AVSBus write, or the fixed level of R364. Before stage TEST
nothing has been set. -/
def State.railTarget (s : State) (die n : Nat) : Nat :=
  if s.boot.stage < 4 then 0
  else match n with
    | 0 => s.railOf die
    | 1 => s.pins.rail2
    | 2 => 750
    | 3 => 750
    | 4 => 1200
    | _ => 1800

def State.readPwr (s : State) (a : Agent) (die o : Nat) : State × Word :=
  let p := s.power
  let site := dieSite die
  match o with
  | 0x000 => (s, word32 (32 + 2 * 64 + 45 * 4096))
  | 0x004 => (s, word32 (p.st.code % 8 + flagBit p.moving 3 + p.target.code % 4 * 16))
  | 0x008 => (s, word32 (p.deepest % 4 + p.idleUs % 65536 * 4))
  | 0x00C => (s, word32 s.budget)
  | 0x010 => (s, word32 (p.limit % 65536))
  | 0x014 => (s, word32 (p.now % 65536))
  | 0x018 => s.latchRead a site 0x1018 (halves p.energy)
  | 0x01C => (s, s.latched a site 0x1018 1)
  | 0x020 => (s, s.selOf a site 0x1020)
  | 0x024 => (s, (s.tenant (shownTenant a (s.selOf a site 0x1020))).budget)
  | 0x028 => s.clearRc (dieSite 0) 0x1028 p.exits 0 fun s v => { s with power := { s.power with exits := v } }
  | 0x02C => (s, word32 (p.wakelat % 16777216 + p.wakeFrom % 4 * 16777216))
  | 0x030 => s.clearRc (dieSite 0) 0x1030 p.emergs 0 fun s v => { s with power := { s.power with emergs := v } }
  | _ =>
    match slotIn o 0x040 6 4, slotIn o 0x080 32 4 with
    | some n, _ => (s, word32 (s.railMv die n % 4096 + s.railTarget die n % 4096 * 4096 +
        flagBit (Tab.get false p.ool (die * 6 + n)) 24))
    | _, some k =>
      let n := die * 32 + k
      let (t, peak) := s.clearRc site o (word32 (tempBits (Tab.get 0 p.peak n))) 0 fun s v =>
        { s with power := { s.power with peak := Tab.set 0 s.power.peak n (v.setWidth 12).toInt } }
      (t, word32 (tempBits (s.tempOf die k) + peak.toNat * 4096))
    | _, _ => (s, 0)

def State.writePwr (s : State) (a : Agent) (die o : Nat) (v : Word) : State × Status :=
  let p := s.power
  match o with
  | 0x008 => s.keeperWrite a (word32 (p.deepest % 4 + p.idleUs % 65536 * 4)) v 0x3FFFF fun s w =>
      { s with power := { p with deepest := if bitsOf w 0 2 = 3 then p.deepest else bitsOf w 0 2,
                                 idleUs := bitsOf w 2 16 } }
  | 0x010 => s.keeperWrite a (word32 (p.limit % 65536)) v 0xFFFF fun s w =>
      { s with power := { p with limit := bitsOf w 0 16 } }
  | 0x020 => (s.setSel a (dieSite die) 0x1020 (v &&& 0xFF), .ok)
  | _ => (s, .ok)

/-! LNK (R268, R269). -/

def farWord (slot die link : Nat) : Word := word32 (slot % 16 + die % 2 * 16 + link % 32 * 32 + 1024)

def State.readLnk (s : State) (a : Agent) (die k o : Nat) : State × Word :=
  let l := s.link die k
  let key := linkKey die k
  let site := dieSite die
  let v2 := decide (l.ver = 2)
  let rc := fun (w : Word) (f : Word → Link → Link) =>
    s.clearRc site (lnkOff k o) w 0 fun s v => s.setLink die k (f v (s.link die k))
  let lowest := l.st = .up && s.bundleLinkOn die l.peerSlot = some key
  let serial := match l.peer with
    | some p => p.serial
    | none => 0
  match o with
  | 0x00 => (s, word32 (1 + vmaxOf s.part.step * 16 + 40 * 256 + (if v2 then 4 else 3) * 2 ^ 14 +
      (if v2 then 21 else 16) * 2 ^ 17 + 2 * 2 ^ 22))
  | 0x04 => (s, word32 (l.st.code + l.reason % 16 * 16 + l.ver % 16 * 256 + flagBit l.swapin 12 +
      flagBit l.swapx 13 + flagBit l.remap 14 + flagBit l.lanesw 15))
  | 0x08 => (s, word32 (flagBit l.en 0 + flagBit l.swappol 2))
  | 0x0C => (s, match l.peer with
      | some p => farWord p.slot p.die p.port
      | none => 0)
  | 0x10 => s.latchRead a site (0x2010 + 256 * k) (halves serial)
  | 0x14 => (s, s.latched a site (0x2010 + 256 * k) 1)
  | 0x18 => (s, match s.expected die k with
      | some (p, d, n) => farWord p d n
      | none => 0)
  | 0x1C => (s, word32 (l.portAt k % 32 + flagBit lowest 5 + flagBit lowest 6 +
      flagBit (s.timingLink = some key) 7))
  | 0x20 => (s, word32 l.delay)
  | 0x24 => (s, l.asym)
  | 0x28 => rc (word32 (l.maxsym % 16)) fun v l => { l with maxsym := v.toNat }
  | 0x2C => rc l.fecc fun v l => { l with fecc := v }
  | 0x30 => rc l.uncor fun v l => { l with uncor := v }
  | 0x34 => rc l.pcrc fun v l => { l with pcrc := v }
  | 0x38 => rc l.rpl fun v l => { l with rpl := v }
  | 0x3C => rc l.retrain fun v l => { l with retrain := v }
  | _ => (s, 0)

def State.writeLnk (s : State) (a : Agent) (die k o : Nat) (v : Word) : State × Status :=
  let l := s.link die k
  if !mayWriteLinks a then (s, .auth)
  else match o with
    | 0x08 =>
      let (s, st) := s.keeperWrite a (word32 (flagBit l.swappol 2)) v 4 fun s w =>
        s.setLink die k { s.link die k with swappol := w.getLsbD 2 }
      let s := if v.getLsbD 0 = l.en then s else s.enableLink die k (v.getLsbD 0)
      (if v.getLsbD 1 then s.retrainLink die k else s, st)
    | 0x24 => s.keeperWrite a l.asym v 0xFFFFFFFF fun s w => s.setLink die k { s.link die k with asym := w }
    | _ => (s, .ok)

/-! ETH (R296). -/

/-- ETH_CTL as it reads. -/
def Eth.ctlWord (e : Eth) : Word := (e.ctl &&& 0xFFE) ||| word32 (flagBit e.dual 0)

def State.readEth (s : State) (a : Agent) (o : Nat) : State × Word :=
  let e := s.eth
  let t := s.tenant (shownTenant a (s.selOf a (dieSite 0) 0x4080))
  let sess := fun (f : Session → Nat) => match t.session with
    | some x => word32 (f x)
    | none => 0
  match o with
  | 0x000 => (s, word32 (8 + 16 + 32 + 64 * 256 + 256 * 65536))
  | 0x004 => (s, word32 (flagBit e.dual 0 + flagBit e.upA 1 + flagBit e.upB 2 + flagBit e.ptpHalf 3 +
      flagBit (e.dual && e.upA ≠ e.upB) 4))
  | 0x008 => (s, e.ctlWord)
  | 0x00C => (s, word32 (e.octport % 65536))
  | 0x010 => (s, word32 s.part.macA.toNat)
  | 0x014 => (s, word32 (s.part.macA.toNat / 4294967296))
  | 0x018 => (s, word32 s.part.macB.toNat)
  | 0x01C => (s, word32 (s.part.macB.toNat / 4294967296))
  | 0x080 => (s, s.selOf a (dieSite 0) 0x4080)
  | 0x084 => (s, sess fun x => x.id)
  | 0x088 => (s, sess fun x => x.ackseq)
  | 0x08C => (s, sess fun x => x.txseq)
  | 0x090 =>
    match t.session with
    | some x => (s, word32 (x.ackt % 1024 + (x.queue.countP fun q => q.2.1 = 1) % 128 * 1024 + flagBit x.lost 17))
    | none => (s, 8)
  | 0x094 => (s, t.chk)
  | 0x098 => (s, t.chkseq)
  | _ =>
    match slotIn o 0x040 10 4 with
    | some n => s.clearRc (dieSite 0) (0x4000 + o) (Tab.get 0 e.cnt n) 0 fun s v =>
      { s with eth := { s.eth with cnt := Tab.set 0 s.eth.cnt n v } }
    | none => (s, 0)

/-- A keeper write of ETH_CTL: a MODE that changes drops the port, which retrains at once (R274); PTPTR's
reserved code is ignored. -/
def State.writeEthCtl (s : State) (a : Agent) (v : Word) : State × Status :=
  s.keeperWrite a s.eth.ctlWord v 0xFFF fun s w =>
    let w := if bitsOf w 10 2 = 3 then (w &&& 0x3FF) ||| (s.eth.ctl &&& 0xC00) else w
    ({ s with eth := { s.eth with ctl := w &&& 0xFFE } }).setEthMode (w.getLsbD 0)

def State.writeEth (s : State) (a : Agent) (die o : Nat) (v : Word) : State × Status :=
  if !mayWriteLinks a then (s, .auth)
  else if die ≠ 0 then (s, .ok)
  else match o with
    | 0x008 => s.writeEthCtl a v
    | 0x00C => s.keeperWrite a (word32 (s.eth.octport % 65536)) v 0xFFFF fun s w =>
        { s with eth := { s.eth with octport := bitsOf w 0 16 } }
    | 0x080 => (s.setSel a (dieSite 0) 0x4080 (v &&& 0xFF), .ok)
    | _ => (s, .ok)

/-! TEN (R319, R320, R452). -/

/-- The aperture a tenant and number name on a die, placed or not. -/
def Tenant.apertureAt (t : Tenant) (die apt : Nat) : Option Aperture :=
  t.apertures.find? fun x => x.apt = apt && x.die = die

/-- How the apertures of a die and R310 judge one: OK, BOUNDS or BUSY. `own` names the entry it replaces; a die's table that
is full is BUSY, as in OPEN (notes/assumptions/105.md). -/
def State.judgeAperture (s : State) (own : Option (Nat × Nat)) (x : Aperture) : Status :=
  if x.size = 0 || 4096 < x.base + x.size || (s.physOf x.die x.cluster).isNone then .bounds
  else
    let others := (s.tenants.map fun e =>
      e.2.apertures.filter fun y => y.valid && y.die = x.die && own ≠ some (e.1, y.apt)).flatten
    let clash := others.any fun y => y.cluster = x.cluster && x.lo < y.hi && y.lo < x.hi
    if x.valid && (clash || 4096 ≤ others.length) then .busy else .ok

/-- Put an aperture into a tenant's list, in the place of the one with its number on its die. -/
def Tenant.putAperture (t : Tenant) (x : Aperture) : Tenant :=
  { t with apertures := x :: t.apertures.filter fun y => !(y.apt = x.apt && y.die = x.die) }

/-- A schedule with nothing set. -/
def Sched.blank : Sched := { nslot := 0, slotns := 0, s0 := 0, owner := [], digest := 0 }

/-- The schedule registers as one record. -/
def State.schedRegs (s : State) : Sched := s.sched.getD Sched.blank

def State.setSchedRegs (s : State) (x : Sched) : State :=
  { s with sched := if x = Sched.blank then none else some x }

/-- The ownership entry an agent's TEN_OWADDR names on a die; none for a cluster number that is not there. -/
def State.ownerKey (s : State) (a : Agent) (die : Nat) : Option Nat :=
  let w := s.selOf a (dieSite die) 0x5034
  if bitsOf w 10 5 < 24 then some (bitsOf w 0 10 * 48 + die * 24 + bitsOf w 10 5) else none

def State.ownerWord (s : State) (a : Agent) (die : Nat) : Word :=
  let o := match s.ownerKey a die with
    | some k => Tab.get 0xFFFF s.schedRegs.owner k
    | none => 0xFFFF
  if o = 0xFFFF then 0
  else if privileged a || o = a.tenant then word32 (o % 256 + 256)
  else word32 (256 + 512)

/-- Writes of TEN_AP_LOC and TEN_AP_SIZE by the keeper: checked when the aperture becomes valid or stays so, and when a valid
one is moved (R452). -/
def State.placeAperture (s : State) (tenant : Nat) (old new : Aperture) : State × Status :=
  let moved := new.cluster ≠ old.cluster || new.slice ≠ old.slice || new.base ≠ old.base
  let check := new.valid || (old.valid && moved)
  let st := if check then s.judgeAperture (some (tenant, new.apt)) new else .ok
  if st = .ok then (s.setTenant tenant ((s.tenant tenant).putAperture new), .ok) else (s, st)

def Aperture.locWord (x : Aperture) : Word :=
  word32 (x.cluster % 32 + x.die % 2 * 32 + x.slice % 4 * 64 + x.base % 4096 * 256 + flagBit x.valid 31)

/-- The aperture an agent's TEN_TSEL and TEN_APSEL show on a die; blank when there is none. -/
def State.shownAperture (s : State) (a : Agent) (die : Nat) : Aperture :=
  let t := s.tenant (shownTenant a (s.selOf a (dieSite die) 0x5004))
  let n := bitsOf (s.selOf a (dieSite die) 0x5010) 0 8
  (t.apertureAt die n).getD
    { apt := n, die := die, cluster := 0, slice := 0, base := 0, size := 0, valid := false }

def State.readTen (s : State) (a : Agent) (die o : Nat) : State × Word :=
  let site := dieSite die
  let n := shownTenant a (s.selOf a site 0x5004)
  let t := s.tenant n
  let x := s.schedRegs
  match o with
  | 0x000 => (s, word32 (256 + 4096 * 512))
  | 0x004 => (s, s.selOf a site 0x5004)
  | 0x008 =>
    let rot := match t.binding with
      | some b => b.rotating
      | none => false
    (s, word32 (t.st.code + flagBit rot 3 + (t.apertures.countP fun y => y.valid) % 512 * 16 +
      t.keyid % 256 * 2 ^ 13))
  | 0x00C => (s, word32 (t.grant.flags % 256 + t.grant.barriers % 256 * 256 + t.grant.lwin % 512 * 65536 +
      t.grant.dwin % 128 * 2 ^ 25))
  | 0x010 => (s, s.selOf a site 0x5010)
  | 0x014 => (s, (s.shownAperture a die).locWord)
  | 0x018 => (s, word32 ((s.shownAperture a die).size % 8192))
  | 0x020 => (s, word32 (x.nslot % 2048))
  | 0x024 => (s, word32 (x.slotns % 16777216))
  | 0x028 => s.latchRead a site 0x5028 (halves x.s0)
  | 0x02C => (s, s.latched a site 0x5028 1)
  | 0x030 => (s, word32 (if x.nslot = 0 then 0 else s.slotNow % 1024))
  | 0x034 => (s, s.selOf a site 0x5034)
  | 0x038 => (s, s.ownerWord a die)
  | 0x03C => (s, word32 x.digest.toNat)
  | _ => (s, 0)

/-- A write of TEN_AP_LOC. -/
def State.writeApLoc (s : State) (a : Agent) (die : Nat) (v : Word) : State × Status :=
  let x := s.shownAperture a die
  if a.kind = .keeper then
    s.placeAperture (shownTenant a (s.selOf a (dieSite die) 0x5004)) x
      { x with cluster := bitsOf v 0 5, slice := bitsOf v 6 2, base := bitsOf v 8 12, valid := v.getLsbD 31 }
  else s.keeperWrite a x.locWord v 0x800FFFDF fun s _ => s

/-- A write of TEN_AP_SIZE. -/
def State.writeApSize (s : State) (a : Agent) (die : Nat) (v : Word) : State × Status :=
  let x := s.shownAperture a die
  if a.kind = .keeper then
    s.placeAperture (shownTenant a (s.selOf a (dieSite die) 0x5004)) x { x with size := bitsOf v 0 13 }
  else s.keeperWrite a (word32 (x.size % 8192)) v 0x1FFF fun s _ => s

def State.writeTen (s : State) (a : Agent) (die o : Nat) (v : Word) : State × Status :=
  let site := dieSite die
  let n := shownTenant a (s.selOf a site 0x5004)
  let g := (s.tenant n).grant
  let x := s.schedRegs
  match o with
  | 0x004 => (s.setSel a site 0x5004 (v &&& 0xFF), .ok)
  | 0x00C => s.keeperWrite a (word32 (g.flags % 256 + g.barriers % 256 * 256 + g.lwin % 512 * 65536 +
      g.dwin % 128 * 2 ^ 25)) v 0xFFFFFFFF fun s w =>
      s.setTenant n { s.tenant n with grant := { flags := bitsOf w 0 8, barriers := bitsOf w 8 8,
                                                 lwin := bitsOf w 16 9, dwin := bitsOf w 25 7 } }
  | 0x010 => (s.setSel a site 0x5010 (v &&& 0xFF), .ok)
  | 0x014 => s.writeApLoc a die v
  | 0x018 => s.writeApSize a die v
  | 0x020 => s.keeperWrite a (word32 (x.nslot % 2048)) v 0x7FF fun s w =>
      s.setSchedRegs { x with nslot := bitsOf w 0 11 }
  | 0x024 => s.keeperWrite a (word32 (x.slotns % 16777216)) v 0xFFFFFF fun s w =>
      s.setSchedRegs { x with slotns := bitsOf w 0 24 }
  | 0x028 => s.keeperWrite a (word32 x.s0.toNat) v 0xFFFFFFFF fun s w =>
      s.setSchedRegs { x with s0 := BitVec.ofNat 64 (w.toNat + x.s0.toNat / 4294967296 * 4294967296) }
  | 0x02C => s.keeperWrite a (word32 (x.s0.toNat / 4294967296)) v 0xFFFFFFFF fun s w =>
      s.setSchedRegs { x with s0 := BitVec.ofNat 64 (x.s0.toNat % 4294967296 + w.toNat * 4294967296) }
  | 0x034 => (s.setSel a site 0x5034 (v &&& 0x7FFF), .ok)
  | 0x038 => s.keeperWrite a (s.ownerWord a die) v 0x1FF fun s w =>
      match s.ownerKey a die with
      | some k => s.setSchedRegs
          { x with owner := Tab.set 0xFFFF x.owner k (if w.getLsbD 8 then bitsOf w 0 8 else 0xFFFF) }
      | none => s
  | _ => (s, .ok)

/-! FLT (R419, R420). -/

/-- A record as an agent may see it (R420). -/
def FaultRec.seenBy (r : FaultRec) (a : Agent) (die : Nat) : List Word :=
  let hidden := !privileged a && (match r.tenant with
    | some t => decide (t ≠ a.tenant)
    | none => false)
  if hidden then [0, 0, 0, 0, 0, 0, 0, 0] else r.words die

/-- The words a read of FLT_REC[0] latches: those of the record whose SEQ is FLT_RSEL, zeros when it is not in
the ring. -/
def State.selectedRecord (s : State) (a : Agent) (die : Nat) : Option FaultRec :=
  let n := (s.selOf a (dieSite die) 0x600C).toNat
  (s.flt die).ring.find? fun r => r.seq = n

def State.readFlt (s : State) (a : Agent) (die o : Nat) : State × Word :=
  let f := s.flt die
  let site := dieSite die
  let n := shownTenant a (s.selOf a site 0x6080)
  match o with
  | 0x000 => (s, word32 (256 + 80 * 512 + 5 * 65536))
  | 0x004 =>
    let last := (s.latched a site 0x6021 0).toNat
    let unread := if 256 < f.head - last then 256 else f.head - last
    let (t, worst) := s.clearRc site 0x6004 (word32 f.worst) 7 fun s v =>
      s.setFlt die { s.flt die with worst := v.toNat }
    (t, word32 (worst.toNat % 8 + unread * 8))
  | 0x008 => (s, word32 f.head)
  | 0x00C => (s, s.selOf a site 0x600C)
  | 0x010 => s.clearRc site 0x6010 f.lost 0 fun s v => s.setFlt die { s.flt die with lost := v }
  | 0x020 =>
    match s.selectedRecord a die with
    | some r => (s.setLatch a site 0x6021 [word32 r.seq]).latchRead a site 0x6020 (r.seenBy a die)
    | none => s.latchRead a site 0x6020 [0, 0, 0, 0, 0, 0, 0, 0]
  | 0x080 => (s, s.selOf a site 0x6080)
  | 0x084 => (s, word32 (Tab.get 0 f.tlast n))
  | 0x300 =>
    let ws := (s.tenant n).record
    s.latchRead a site 0x6300 (if ws = [] then List.replicate 32 0 else ws)
  | _ =>
    match slotIn o 0x020 8 4, slotIn o 0x100 80 4, slotIn o 0x300 32 4 with
    | some w, _, _ => (s, s.latched a site 0x6020 w)
    | _, some c, _ =>
      if privileged a then
        s.clearRc site (0x6100 + 4 * c) (Tab.get 0 f.cnt c) 0 fun s v =>
          s.setFlt die { s.flt die with cnt := Tab.set 0 (s.flt die).cnt c v }
      else (s, 0)
    | _, _, some w => (s, s.latched a site 0x6300 w)
    | _, _, _ => (s, 0)

def State.writeFlt (s : State) (a : Agent) (die o : Nat) (v : Word) : State × Status :=
  match o with
  | 0x00C => (s.setSel a (dieSite die) 0x600C v, .ok)
  | 0x080 => (s.setSel a (dieSite die) 0x6080 (v &&& 0xFF), .ok)
  | _ => (s, if mayWriteLinks a then .ok else .auth)

/-! KPR (R402). Die 1 mirrors die 0. -/

/-- The words of a measurement, least significant bytes first; indices 11 to 15 read as zero. -/
def State.measureWords (s : State) (i : Nat) : List Word :=
  let m : BitVec 384 := if i ≤ 10 then Tab.get 0 s.fw.meas i else 0
  (List.range 12).map fun w => word32 (m.toNat / 2 ^ (32 * w))

def State.readKpr (s : State) (a : Agent) (o : Nat) : State × Word :=
  let site := dieSite 0
  let started := 3 ≤ s.boot.stage
  match o with
  | 0x000 => (s, word32 (s.part.romver % 256 + 4 * 256 + s.part.revoked % 16 * 4096 + flagBit s.part.owner.isSome 16))
  | 0x004 => (s, word32 (s.pins.pkgStat % 8 + flagBit s.bootStopped 3 + s.boot.err % 256 * 16 +
      s.boot.tries % 65536 * 4096))
  | 0x008 => (s, if started then s.fw.verM else 0)
  | 0x00C => (s, if started then s.fw.verA else 0)
  | 0x010 => (s, word32 (s.boot.meridianSvn % 256 + s.boot.almanacSvn % 256 * 256 + s.part.fwmin % 65536 * 65536))
  | 0x014 => s.clearRc site 0x7014 s.fw.arest 0 fun s v => { s with fw := { s.fw with arest := v } }
  | 0x018 => (s, s.selOf a site 0x7018)
  | 0x020 => s.latchRead a site 0x7020 (s.measureWords (s.selOf a site 0x7018).toNat)
  | _ =>
    match slotIn o 0x020 12 4 with
    | some w => (s, s.latched a site 0x7020 w)
    | none => (s, 0)

def State.writeKpr (s : State) (a : Agent) (o : Nat) (v : Word) : State × Status :=
  (if o = 0x018 then s.setSel a (dieSite 0) 0x7018 (v &&& 0xF) else s, .ok)

/-! TIME (R61 to R63). -/

/-- TIME_STAT. -/
def State.timeStat (s : State) : Word :=
  let c := s.clock
  let role := if c.role = 3 then 3 else match c.leader with
    | none => 0
    | some x => if x = s.slot then 1 else 2
  word32 (flagBit c.lock 0 + flagBit c.ptpLock 1 + flagBit c.sysLock 2 + role * 8 +
    c.leader.getD 0 % 16 * 32 + flagBit c.via 9 + flagBit c.conflict 10)

/-- Plate beats of the current or last run. -/
def State.runBeats (s : State) (tenant : Nat) : Nat :=
  let t := s.tenant tenant
  match t.run with
  | none => 0
  | some r =>
    if r.ended then (t.record.getD 8 0).toNat + 4294967296 * (t.record.getD 9 0).toNat else s.beatsOf tenant

/-- Present frequency of a region in whole MHz; 0 while its ADPLL is off. -/
def Region.mhz (x : Region) : Nat := if x.lock then 850 + 25 * x.k / 4 else 0

def State.readTime (s : State) (a : Agent) (die o : Nat) : State × Word :=
  let c := s.clock
  let site := dieSite die
  let n := shownTenant a (s.selOf a site 0x801C)
  let t := s.tenant n
  let bound := fun (f : Binding → Nat) => match t.binding with
    | some b => word32 (f b)
    | none => 0
  let ran := fun (f : Run → Word) => match t.run with
    | some r => f r
    | none => 0
  match o with
  | 0x000 => s.latchRead a site 0x8000 (halves c.sid)
  | 0x004 => (s, s.latched a site 0x8000 1)
  | 0x008 => (s, word32 (c.role % 4 + flagBit c.ptpEn 2))
  | 0x00C => (s, s.timeStat)
  | 0x010 => (s, c.offset)
  | 0x014 => (s, c.incr)
  | 0x018 => (s, word32 (c.xmin % 65536))
  | 0x01C => (s, s.selOf a site 0x801C)
  | 0x020 => (s, bound fun b => b.explen / 64 % 2048 + b.scope % 4 * 2048)
  | 0x024 => (s, bound fun b => if b.scope = 0 then 0 else b.lead % 16777216)
  | 0x028 => (s, bound fun b => if b.scope = 2 then b.pitch % 16777216 else 0)
  | 0x02C => s.latchRead a site 0x802C (halves (BitVec.ofNat 64 (s.runBeats n)))
  | 0x030 => (s, s.latched a site 0x802C 1)
  | 0x034 => (s, ran (·.exps))
  | 0x038 => (s, ran (·.xwait))
  | 0x03C => (s, ran (·.late))
  | 0x040 => (s, ran (·.stretch))
  | 0x044 => (s, ran (·.hold))
  | 0x048 => (s, ran (·.fgate))
  | _ =>
    let x := s.region (die * 4 + o / 4 % 4)
    match o / 16 with
    | 8 => (s, x.stretches)
    | 9 => (s, x.holds)
    | 10 => (s, x.lholds)
    | 11 => (s, word32 x.mhz)
    | 12 => (s, x.gholds)
    | _ => (s, 0)

def State.writeTime (s : State) (a : Agent) (die o : Nat) (v : Word) : State × Status :=
  let c := s.clock
  match o with
  | 0x008 => s.keeperWrite a (word32 (c.role % 4 + flagBit c.ptpEn 2)) v 7 fun s w =>
      { s with clock := { c with role := bitsOf w 0 2, ptpEn := w.getLsbD 2 } }
  | 0x01C => (s.setSel a (dieSite die) 0x801C (v &&& 0xFF), .ok)
  | _ => (s, .ok)

/-! TOPO (R1, R38). All fields are RO. -/

/-- Four distance bytes as a word. -/
def bytes4 (f : Nat → Nat) : Word := word32 (f 0 + f 1 * 256 + f 2 * 65536 + f 3 * 16777216)

/-- A TOPO register's contents (R38). -/
def State.topoWord (s : State) (die o : Nat) : Word :=
  let b0 := s.part.step = 0xB0
  match o with
  | 0x000 => word32 (s.part.grade % 256 + s.part.step % 256 * 256 + 65536 + flagBit b0 17 +
      gradeClusters s.part.grade * 2 ^ 18)
  | 0x004 => word32 (4 + 6 * 16 + 24 * 256 + die * 8192 + s.slot % 16 * 16384 + 24 * 2 ^ 18)
  | 0x008 => s.topoGen die
  | 0x00C => s.favoured die 0
  | 0x010 => s.favoured die 1
  | 0x014 => s.favoured die 2
  | _ =>
    let j := (o / 4) % 8
    if 0x200 ≤ o && o < 0x500 then
      (if 6 ≤ j then 0 else bytes4 fun n => s.distByte die ((o - 0x200) / 32) die (4 * j + n))
    else if 0x600 ≤ o && o < 0x900 then
      (if 6 ≤ j then 0 else bytes4 fun n => s.distByte die ((o - 0x600) / 32) (1 - die) (4 * j + n))
    else if 0xA00 ≤ o && o < 0xD00 then bytes4 fun n => s.portByte die ((o - 0xA00) / 32) (4 * j + n)
    else match slotIn o 0x040 24 4, slotIn o 0x0C0 24 4, slotIn o 0xE00 24 4 with
      | some l, _, _ => s.lmap die l
      | _, some p, _ => s.pmap die p
      | _, _, some k =>
        let x := s.link die k
        word32 (if x.latValid then x.lat % 256 + 65536 else 0)
      | _, _, _ => 0

/-- A read of TOPO: before First Light has published a map every register but TOPO_PART, TOPO_GEOM and TOPO_GEN is undefined and
reads a free value (R28; notes/assumptions/114.md). -/
def State.readTopo (s : State) (die o : Nat) : State × Word :=
  if s.topoGen die = 0 && 0x008 < o then ({ s with fresh := s.fresh + 1 }, Config.freeWord s.fresh)
  else (s, s.topoWord die o)

/-! Blocks (R9) and the judging of an access (R8, R26, R212). -/

/-- Whether a cluster offset lies in a core-island block. -/
def coreBlock (off : Nat) : Bool := off / 4096 ≠ 6 && off / 4096 ≠ 7

def State.readCluster (s : State) (a : Agent) (die p off : Nat) : State × Word :=
  let o := off % 4096
  match off / 4096 with
  | 0 => s.readSeq a die p o
  | 1 => s.readMxa a die p 0 o
  | 2 => s.readMxa a die p 1 o
  | 3 => s.readVec die p 0 o
  | 4 => s.readVec die p 1 o
  | 5 => s.readSpad die p o
  | 6 => s.readBnet a die p o
  | 7 => s.readSnet a die p o
  | 8 => s.readChk a die p o
  | _ => (s, 0)

def State.readDie (s : State) (a : Agent) (die off : Nat) : State × Word :=
  let o := off % 4096
  match off / 4096 with
  | 0 => s.readClk die o
  | 1 => s.readPwr a die o
  | 2 => s.readLnk a die (o / 256) (o % 256)
  | 3 => if o < 0x800 then s.readLnk a die (16 + o / 256) (o % 256) else (s, 0)
  | 4 => if die = 0 then s.readEth a o else (s, 0)
  | 5 => s.readTen a die o
  | 6 => s.readFlt a die o
  | 7 => s.readKpr a o
  | 8 => s.readTime a die o
  | 9 => s.readTopo die o
  | _ => (s, 0)

def State.writeCluster (s : State) (a : Agent) (die p off : Nat) (v : Word) : State × Status :=
  let o := off % 4096
  match off / 4096 with
  | 0 => s.writeSeq a die p o v
  | 1 => s.writeMxa die p 0 o v
  | 2 => s.writeMxa die p 1 o v
  | 3 => s.writeVec die p 0 o v
  | 4 => s.writeVec die p 1 o v
  | 5 => s.writeSpad a die p o v
  | 6 => s.writeBnet a die p o v
  | 7 => s.writeSnet a die p o v
  | 8 => s.writeChk a die p o v
  | _ => (s, .ok)

def State.writeDie (s : State) (a : Agent) (die off : Nat) (v : Word) : State × Status :=
  let o := off % 4096
  match off / 4096 with
  | 0 => s.writeClk a die o v
  | 1 => s.writePwr a die o v
  | 2 => s.writeLnk a die (o / 256) (o % 256) v
  | 3 => if o < 0x800 then s.writeLnk a die (16 + o / 256) (o % 256) v else (s, .ok)
  | 4 => s.writeEth a die o v
  | 5 => s.writeTen a die o v
  | 6 => s.writeFlt a die o v
  | 7 => s.writeKpr a o v
  | 8 => s.writeTime a die o v
  | _ => (s, .ok)

/-- Read a register: `cluster` is a logical cluster, or 0x1F for the die block. -/
def State.regRead (s : State) (a : Agent) (die cluster off : Nat) : State :=
  if s.power.st = .off then s
  else if cluster = 0x1F then
    let (t, w) := s.readDie a die off
    t.answer .ok [w]
  else
    match s.blockOf die cluster (coreBlock off) with
    | (.ok, p) =>
      let (t, w) := s.readCluster a die p off
      t.answer .ok [w]
    | (st, _) => s.answer st []

/-- OP of SNET_FOP (R241). -/
def fopOp (n : Nat) : Option FlagOp :=
  match n with
  | 1 => some .set | 2 => some .clr | 3 => some .cnt | _ => none

/-- Write a register; AUTH is counted under cause 0x16 (R11). -/
def State.regWrite (s : State) (a : Agent) (die cluster off : Nat) (v : Word) : State :=
  if s.power.st = .off then s
  else if cluster = 0x1F then
    let (t, st) := s.writeDie a die off v
    let t := if st = .auth then t.authCount a die 0x1F (s.dieAddr die off) else t
    t.answer st []
  else if off = 0x702C then
    let owner := bitsOf v 10 8
    match fopOp (bitsOf v 8 2) with
    | some op => s.hostFlag a die cluster (bitsOf v 0 8) owner op
    | none => s.answer (s.blockOf die cluster false).1 []
  else
    match s.blockOf die cluster (coreBlock off) with
    | (.ok, p) =>
      let (t, st) := s.writeCluster a die p off v
      let t := if st = .auth then t.authCount a die p (s.regAddr die cluster off) else t
      t.answer st []
    | (st, _) => s.answer st []

/-! Unit-local space 0b01 (R175, R176, R213). -/

/-- Some byte of the line store lies in the line window of a context whose plate is Running. -/
def State.lineInUse (s : State) (c : Cluster) (lo len : Nat) : Bool :=
  c.ctxs.any fun e => e.2.valid && (s.tenant e.2.tenant).st = .running && lo < 1024 * (e.2.lbase + e.2.lsize) &&
    1024 * e.2.lbase < lo + len

/-- How an access to space 0b01 of a cluster is judged: its data windows, for a host or remote agent of the
windows' tenant; the line store, for the management core. -/
def State.judgeLocal (s : State) (a : Agent) (die cluster off len : Nat) : Status × Nat :=
  match s.blockOf die cluster true with
  | (.ok, p) =>
    let c := s.cluster die p
    let line := 0x10000 ≤ off && off + len ≤ 0x50000
    let tenantAgent := a.kind = .host || a.kind = .remote
    if line && a.kind = .mgmt then (.ok, p)
    else if tenantAgent && off + len ≤ 0x10000 && (List.range len).all fun j => c.inWindow a.tenant (off + j) then
      (.ok, p)
    else (.bounds, p)
  | (st, p) => (st, p)

/-- A packet to a fenced core or a failed router is answered FAULT, counted and recorded (R211). -/
def State.localFault (s : State) (a : Agent) (die phys off : Nat) (cluster : Nat) : State :=
  let s := s.countBnet die phys 0x2C 1
  let addr := s.slot * 2 ^ 44 + die * 2 ^ 43 + cluster * 2 ^ 38 + 2 ^ 36 + off
  (s.record die 1 0x17 (some a.tenant) phys (s.beatNow a.tenant) (BitVec.ofNat 64 addr) false).answer .fault []

/-- HOST_DWIN_WRITE (R175, R176): the bytes wait for the end of a beat on which the kind 6 port is idle. The loader's write of a
line window in use is not performed (R150); that it answers BUSY is notes/assumptions/106.md. -/
def execHostDwinWrite (a : Agent) (die cluster offset : Nat) (data : List Byte) (s : State) :
    Host.Outcome State Fault Refusal :=
  done s (
    if s.power.st = .off then s
    else match s.judgeLocal a die cluster offset data.length with
      | (.ok, p) =>
        if 0x10000 ≤ offset && s.lineInUse (s.cluster die p) (offset - 0x10000) data.length then s.answer .busy []
        else
          let s := s.modCluster die p fun c =>
            if 0x10000 ≤ offset then { c with lines := Tab.setRun 0 c.lines (offset - 0x10000) data }
            else { c with dwin := c.dwin ++ [(offset, data)] }
          s.answer .ok []
      | (.fault, p) => s.localFault a die p offset cluster
      | (st, _) => s.answer st [])

/-- HOST_DWIN_READ (R175, R176): the word as it stood at the end of the previous beat, on a beat on which the
kind 6 port is idle; on another the read still waits. -/
def execHostDwinRead (a : Agent) (die cluster offset len : Nat) (s : State) : Host.Outcome State Fault Refusal :=
  done s (
    if s.power.st = .off then s
    else match s.judgeLocal a die cluster offset len with
      | (.ok, p) =>
        let c := s.cluster die p
        if 0x10000 ≤ offset then
          s.answer .ok ((Tab.getRun 0 c.lines (offset - 0x10000) len).map (·.setWidth 32))
        else if s.dportIdle die p then s.answer .ok ((Tab.getRun 0 c.dsram offset len).map (·.setWidth 32))
        else s
      | (.fault, p) => s.localFault a die p offset cluster
      | (st, _) => s.answer st [])

/-! Accesses by address (R7, R8). -/

/-- What R8 makes of an address and a length: BOUNDS, or the access may go on. -/
def badAccess (addr len : Nat) : Bool :=
  let space := addrSpace addr
  space = 3 || (addrCluster addr = 0x1F && space < 2) || (space = 0 && 2 ^ 26 ≤ addrOff addr) ||
    (space = 2 && (len ≠ 4 || addr % 4 ≠ 0)) || (addrCluster addr ≠ 0x1F && 24 ≤ addrCluster addr)

/-- The tenant a record of an agent's access names. -/
def agentTenant (a : Agent) : Option Nat := if a.kind = .host || a.kind = .remote then some a.tenant else none

/-- A listed slot that no bundle reaches, directly or through a relay: FAULT, counted (R37). -/
def State.unreachable (s : State) (a : Agent) (addr : Nat) : State :=
  (s.record 0 1 0x17 (agentTenant a) 0x1F (match agentTenant a with
    | some t => s.beatNow t
    | none => 0) (BitVec.ofNat 64 addr) false).answer .fault []

/-- An agent other than the keeper reaches only its tenant's apertures; the management core holds none (R311). -/
def State.mayTouch (s : State) (a : Agent) (addr len : Nat) : Bool :=
  a.kind = .keeper || (a.kind ≠ .mgmt && inOneSlice (addrOff addr) len &&
    (s.tenant a.tenant).holds (addrDie addr) (addrCluster addr) (addrOff addr) len)

/-- An access to control space of this package goes to its register. One to another package leaves over a board link and is
answered there, or here where nothing reaches the slot. One to the scratchpad or to unit-local space is no register access:
it is judged, and what it does is that of the rows of bulk packets and data windows. -/
def State.access (s : State) (a : Agent) (addr len : Nat) (f : State → Nat → Nat → Nat → State) : State :=
  let die := addrDie addr
  let cl := addrCluster addr
  if s.power.st = .off then s
  else if badAccess addr len then s.answer .bounds []
  else if addrSlot addr ≠ s.slot then
    match s.board with
    | some b =>
      if !b.slots.contains (addrSlot addr) then s.answer .bounds []
      else if (s.homeLink 0 (addrSlot addr)).isNone then s.unreachable a addr
      else s
    | none => s.answer .bounds []
  else if addrSpace addr = 2 then f s die cl (addrOff addr)
  else if (s.physOf die cl).isNone then s.answer .bounds []
  else if addrSpace addr = 0 then if s.mayTouch a addr len then s else s.answer .bounds []
  else match s.judgeLocal a die cl (addrOff addr) len with
    | (.ok, _) => s
    | (.fault, p) => s.localFault a die p (addrOff addr) cl
    | (st, _) => s.answer st []

/-- The further words of a burst write, each written to the same register (R214). The completion carries the first status that
is not OK (notes/assumptions/107.md). -/
def State.burst (s : State) (a : Agent) (die cluster off : Nat) (more : List Word) : State :=
  more.foldl (fun s v =>
    let t := s.regWrite a die cluster off v
    if s.reply.status = .ok then t else { t with reply := s.reply }) s

/-- REGISTER_WRITE (R10, R11): the word written, and what a burst write's payload holds after it (R214). -/
def execRegisterWrite (a : Agent) (addr len : Nat) (value : Word × List Word) (s : State) :
    Host.Outcome State Fault Refusal :=
  done s (s.access a addr len fun s d c o => (s.regWrite a d c o value.1).burst a d c o value.2)

/-- READ_CLEAR (R10): the read of a register; an RC field is cleared by it. -/
def execReadClear (a : Agent) (addr len : Nat) (s : State) : Host.Outcome State Fault Refusal :=
  done s (s.access a addr len fun s d c o => s.regRead a d c o)

/-! The rows of single registers. -/

/-- BNET_EWDATA_HI_WRITE (R217). -/
def execBnetEwdataHiWrite (a : Agent) (die cluster : Nat) (value : Word) (s : State) :
    Host.Outcome State Fault Refusal :=
  done s (s.regWrite a die cluster 0x6010 value)

/-- BNET_RTDATA_WRITE (R209). -/
def execBnetRtdataWrite (a : Agent) (die cluster : Nat) (value : Word) (s : State) :
    Host.Outcome State Fault Refusal :=
  done s (s.regWrite a die cluster 0x6018 value)

/-- SEQ_WIN_WRITE (R451). -/
def execSeqWinWrite (a : Agent) (die cluster : Nat) (w : SeqWin) (value : Word) (s : State) :
    Host.Outcome State Fault Refusal :=
  done s (s.regWrite a die cluster (match w with
    | .lwin => 0x0010
    | .dwin => 0x0014) value)

/-- TEN_AP_LOC_WRITE (R452). -/
def execTenApLocWrite (a : Agent) (die : Nat) (value : Word) (s : State) : Host.Outcome State Fault Refusal :=
  done s (s.regWrite a die 0x1F 0x5014 value)

/-- TEN_AP_SIZE_WRITE (R452). -/
def execTenApSizeWrite (a : Agent) (die : Nat) (value : Word) (s : State) : Host.Outcome State Fault Refusal :=
  done s (s.regWrite a die 0x1F 0x5018 value)

/-- ETH_CTL_MODE_WRITE (R274). -/
def execEthCtlModeWrite (a : Agent) (value : Word) (s : State) : Host.Outcome State Fault Refusal :=
  done s (s.regWrite a 0 0x1F 0x4008 value)

/-- CLK_GOV_WRITE (R380). -/
def execClkGovWrite (a : Agent) (die : Nat) (value : Word) (s : State) : Host.Outcome State Fault Refusal :=
  done s (s.regWrite a die 0x1F 0x000C value)

/-- TIME_SID_LO_READ (R62). -/
def execTimeSidLoRead (a : Agent) (die : Nat) (s : State) : Host.Outcome State Fault Refusal :=
  done s (s.regRead a die 0x1F 0x8000)

/-- TIME_T_BEAT_LO_READ (R62). -/
def execTimeTBeatLoRead (a : Agent) (die : Nat) (s : State) : Host.Outcome State Fault Refusal :=
  done s (s.regRead a die 0x1F 0x802C)

/-- MXA_COLS_LO_READ (R87). -/
def execMxaColsLoRead (a : Agent) (die cluster arr : Nat) (s : State) : Host.Outcome State Fault Refusal :=
  done s (s.regRead a die cluster (0x100C + 0x1000 * (arr % 2)))

/-- BNET_EWDATA_LO_READ (R217). -/
def execBnetEwdataLoRead (a : Agent) (die cluster : Nat) (s : State) : Host.Outcome State Fault Refusal :=
  done s (s.regRead a die cluster 0x600C)

/-- BNET_SFLIT_LO_READ (R217). -/
def execBnetSflitLoRead (a : Agent) (die cluster : Nat) (s : State) : Host.Outcome State Fault Refusal :=
  done s (s.regRead a die cluster 0x6030)

/-- LNK_PSER_LO_READ (R269). -/
def execLnkPserLoRead (a : Agent) (die link : Nat) (s : State) : Host.Outcome State Fault Refusal :=
  done s (s.regRead a die 0x1F (0x2010 + 256 * (link % 24)))

/-- TEN_OBS_S0_LO_READ (R320). -/
def execTenObsS0LoRead (a : Agent) (die : Nat) (s : State) : Host.Outcome State Fault Refusal :=
  done s (s.regRead a die 0x1F 0x5028)

/-- PWR_ENERGY_LO_READ (R382). -/
def execPwrEnergyLoRead (a : Agent) (die : Nat) (s : State) : Host.Outcome State Fault Refusal :=
  done s (s.regRead a die 0x1F 0x1018)

/-- KPR_MDATA_READ (R402). -/
def execKprMdataRead (a : Agent) (die : Nat) (s : State) : Host.Outcome State Fault Refusal :=
  done s (s.regRead a die 0x1F 0x7020)

/-- FLT_REC_READ (R420). -/
def execFltRecRead (a : Agent) (die : Nat) (s : State) : Host.Outcome State Fault Refusal :=
  done s (s.regRead a die 0x1F 0x6020)

/-- FLT_T_RUN_READ (R420). -/
def execFltTRunRead (a : Agent) (die : Nat) (s : State) : Host.Outcome State Fault Refusal :=
  done s (s.regRead a die 0x1F 0x6300)

end Sys2Proof.Machine
end

