-- ==== Sys2Proof/Machine/Commands.lean ====
section
/-!
DEFINITION. The commands of R300 apart from LOAD_PLATE and BIND: how a command is judged (R301 to R303, R309), and
what each does.
-/

namespace Sys2Proof.Machine

/-! The form of a command (R285, R300) and its turn (R284). -/

/-- How a row of the table is asked for: its CODE, whether a payload's fields are the row's operands, the fields as R300 lays them
out, whether it needs the fabric (R372), and its TSEQ. -/
structure CmdForm where
  code : Nat
  reads : List Byte → Bool
  fields : List Byte
  fabric : Bool := false
  tseq : Nat := 0

/-- The head of a CMD payload (R285). -/
def cmdHead (code tag : Nat) : List Byte := leBytes 2 code ++ leBytes 2 tag ++ leBytes 4 0

/-- The CMD payload at the front of a tenant's queue, where it is the one a head names and has a CODE (R284, R285). -/
def State.front (s : State) (h : CmdHead) (code : Nat) : Option (List Byte) :=
  match (s.tenant h.tenant).turn with
  | some y =>
    match y.queue with
    | (n, k, bs) :: _ =>
      if n = h.seq && k = 1 && fieldAt bs 0 1 = code && fieldAt bs 2 2 = h.tag then some bs else none
    | [] => none
  | none => none

/-- A payload is the command and nothing else: no reserved bit is set, no field is cut short, and zeros alone follow (R300). -/
def CmdForm.spelled (f : CmdForm) (tag : Nat) (bs : List Byte) : Bool :=
  let whole := cmdHead f.code tag ++ f.fields
  bs.take whole.length = whole && (bs.drop whole.length).all (· = 0)

/-- A command begins when it stands at the front of its tenant's queue; it waits while an earlier command of its tenant is in
progress (R284), and, when it needs the fabric, while the package is on its way to Active (R372, R374). A set reserved bit
or a missing byte makes it UNSUPPORTED (R301). A Closed tenant's packet is discarded. -/
def State.command (s : State) (h : CmdHead) (f : CmdForm) (go : State) : State :=
  let t := s.tenant h.tenant
  if s.power.st = .off || t.st = .closed || t.xfer.isSome || t.stopping.isSome then s
  else
    match s.front h f.code with
    | none => s
    | some bs =>
      if !f.reads (bs.drop 8) then s
      else if f.fabric && (s.power.st ≠ .active || s.power.moving) then s.askWake h.tenant
      else if !f.spelled h.tag bs then s.complete h .unsupported none f.tseq 0 []
      else go

/-! Judging (R301, R302). -/

/-- The checks of R301 in their order: legal fields, the operator's commands, the state. -/
def State.judge (s : State) (h : CmdHead) (legal operator allowed : Bool) (go : State) : State :=
  if !legal then s.reply_ h .unsupported
  else if operator && h.tenant ≠ 0 then s.reply_ h .auth
  else if !allowed then s.reply_ h .state
  else go

/-- A value fits a field of `n` bits. -/
def fits (v n : Nat) : Bool := v < 2 ^ n

/-! HELLO, OPEN and CLOSE (R279, R304, R305). -/

def helloForm (ackt : Nat) : CmdForm :=
  { code := 0x01, reads := fun f => fieldAt f 0 2 = ackt, fields := leBytes 2 ackt }

/-- The session that a HELLO opens takes the place of the old one, whose unacknowledged packets are discarded and counted
(R279). -/
def Tenant.openSession (t : Tenant) : Tenant :=
  if t.inForce then t else { t with session := t.opening, opening := none }

/-- HELLO (R279, R300): its session is in force from then on, with its ACKT. -/
def execHello (h : CmdHead) (session ackt : Nat) (s : State) : Host.Outcome State Fault Refusal :=
  done s (
    if ((s.tenant h.tenant).turn.map (·.id)) ≠ some session then s
    else s.command h (helloForm ackt) (s.judge h (4 ≤ ackt && ackt ≤ 1000) false true (
      let t := s.tenant h.tenant
      let lost := if t.inForce then 0 else (t.session.map fun x => x.unacked.length).getD 0
      let u := t.openSession
      let s := (s.countEth 5 lost).setTenant h.tenant { u with session := u.session.map fun x => { x with ackt := ackt } }
      s.complete h .ok none 0 0 (leBytes 1 u.st.code ++ leBytes 1 s.slot ++ wordBytes (s.topoGen 0)))))

def ApEntry.aperture (e : ApEntry) : Aperture :=
  { apt := e.apt, die := e.die, cluster := e.cluster, slice := e.slice, base := e.base, size := e.size,
    valid := true }

/-- An aperture entry's 8 bytes (R310), and what they hold. -/
def ApEntry.bytes_ (e : ApEntry) : List Byte :=
  leBytes 1 e.apt ++ leBytes 1 (e.cluster % 32 + e.die % 2 * 32 + e.slice % 4 * 64) ++ leBytes 2 e.base ++ leBytes 2 e.size ++
    leBytes 2 0

def readEntry (f : List Byte) : ApEntry :=
  let b := fieldAt f 1 1
  { apt := fieldAt f 0 1, die := b / 32 % 2, cluster := b % 32, slice := b / 64, base := fieldAt f 2 2, size := fieldAt f 4 2 }

def readOpen (f : List Byte) : OpenArgs :=
  { tenant := fieldAt f 0 1, keyonly := fieldAt f 1 1 % 2 = 1, keyid := fieldAt f 2 1,
    key := BitVec.ofNat 256 (fieldAt f 4 32), flags := fieldAt f 36 1, barriers := fieldAt f 37 1, lwin := fieldAt f 38 2,
    dwin := fieldAt f 40 1, apertures := (List.range (fieldAt f 41 2)).map fun i => readEntry (f.drop (43 + 8 * i)) }

def OpenArgs.bytes_ (a : OpenArgs) : List Byte :=
  leBytes 1 a.tenant ++ leBytes 1 (flagBit a.keyonly 0) ++ leBytes 1 a.keyid ++ leBytes 1 0 ++ leBytes 32 a.key.toNat ++
    leBytes 1 a.flags ++ leBytes 1 a.barriers ++ leBytes 2 a.lwin ++ leBytes 1 a.dwin ++ leBytes 2 a.apertures.length ++
    a.apertures.flatMap ApEntry.bytes_

def openForm (a : OpenArgs) : CmdForm := { code := 0x02, reads := fun f => readOpen f = a, fields := OpenArgs.bytes_ a }

def closeForm (tenant : Nat) : CmdForm :=
  { code := 0x03, reads := fun f => fieldAt f 0 1 = tenant, fields := leBytes 1 tenant, fabric := true }

def apEntryLegal (e : ApEntry) : Bool :=
  fits e.apt 8 && fits e.die 1 && fits e.cluster 5 && fits e.slice 2 && fits e.base 16 && 1 ≤ e.size && e.size ≤ 4096

/-- Check 1 of R301 for OPEN. -/
def openLegal (a : OpenArgs) : Bool :=
  fits a.tenant 8 && fits a.keyid 8 && fits a.flags 8 && fits a.barriers 8 && a.lwin ≤ 256 && a.dwin ≤ 64 &&
    a.apertures.length ≤ 256 && a.apertures.all apEntryLegal

/-- Two apertures share a byte. -/
def Aperture.meets (x y : Aperture) : Bool :=
  x.valid && y.valid && x.die = y.die && x.cluster = y.cluster && x.lo < y.hi && y.lo < x.hi

/-- Two entries with one APT, or two that overlap (R304). -/
def repeats : List Aperture → Bool
  | [] => false
  | x :: xs => (xs.any fun y => x.apt = y.apt || x.meets y) || repeats xs

/-- Entries of a die's aperture table held by tenants other than one. -/
def State.heldByOthers (s : State) (tenant die : Nat) : Nat :=
  s.tenants.foldl (fun n e => if e.1 = tenant then n else n + e.2.apertures.countP fun x => x.valid && x.die = die) 0

/-- The judging of aperture entries, in the order of R304. -/
def State.judgeEntries (s : State) (tenant : Nat) (xs : List Aperture) : Status :=
  let others := s.tenants.filter fun e => e.1 ≠ tenant
  if repeats xs then .unsupported
  else if xs.any fun x => (s.physOf x.die x.cluster).isNone || 4096 < x.base + x.size then .bounds
  else if (xs.any fun x => others.any fun e => e.2.apertures.any x.meets) ||
      (List.range 2).any fun d => 4096 < s.heldByOthers tenant d + xs.countP fun x => x.die = d then .busy
  else .ok

/-- Install a key as a new generation; the one in force stays until a packet under the new one comes (R304). -/
def Tenant.install (t : Tenant) (keyid : Nat) (key : BitVec 256) : Tenant :=
  { t with keys := (t.keys.filter fun k => k.1 ≠ keyid) ++ [(keyid, key)], keyid := keyid }

def Tenant.place (t : Tenant) (a : OpenArgs) : Tenant :=
  { t with grant := { flags := a.flags, barriers := a.barriers, lwin := a.lwin, dwin := a.dwin },
           apertures := a.apertures.map ApEntry.aperture }

/-- OPEN: its state is that of the tenant it names (R302, R304). -/
def execOpenTenant (h : CmdHead) (a : OpenArgs) (s : State) : Host.Outcome State Fault Refusal :=
  done s (
    let u := s.tenant a.tenant
    if a.tenant ≠ h.tenant && (u.xfer.isSome || u.stopping.isSome) then s
    else s.command h (openForm a) (s.judge h (openLegal a) true
      (a.keyonly || u.st = .closed || u.st = .opened || u.st = .loaded) (
        let xs := a.apertures.map ApEntry.aperture
        if a.keyonly then
          if a.tenant = 0 || (u.st ≠ .closed && a.keyid = u.keyid) then s.reply_ h .bounds
          else
            let u := if u.st = .closed then { Tenant.init with st := .opened } else u
            (s.setTenant a.tenant (u.install a.keyid a.key)).reply_ h .ok
        else
          match s.judgeEntries a.tenant xs with
          | .ok =>
            let u := if u.st = .closed then { Tenant.init with st := .opened }.install a.keyid a.key else u
            (s.setTenant a.tenant (u.place a)).reply_ h .ok
          | st => s.reply_ h st)))

/-- Take a tenant's ephemeris partition off a router. -/
def State.releasePart (s : State) (die p tenant : Nat) : State :=
  (List.range 16).foldl (fun s n =>
    let c := s.partition die p n
    if c.valid && c.tenant = tenant then
      let site := clSite die p
      let r := s.router die p
      let s := s.setRouter die p { r with written := Tab.clearRange r.written c.base (c.base + c.period) }
      ((s.setReg site (0x6040 + 4 * n) 0 0).setReg site (0x6080 + 4 * n) 0 0).setReg site (0x60C0 + 4 * n) 0 0
    else s) s

/-- Take a binding off the clusters and routers: contexts, windows, flag, barrier and ephemeris partitions. -/
def State.unplace (s : State) (tenant : Nat) (b : Binding) : State :=
  let s := b.sites.foldl (fun s x => s.modCluster x.die x.phys fun c =>
    { c with ctxs := Tab.erase c.ctxs x.ctx,
             running := if c.running = some x.ctx then none else c.running }) s
  let s := (List.range 48).foldl (fun s n => s.releasePart (n / 24) (n % 24) tenant) s
  { s with barriers := s.barriers.filter fun x => x.tenant ≠ tenant }

/-- Clear the core state a closed tenant leaves (R85, notes/assumptions/54.md). -/
def Cluster.vacate (tenant : Nat) (c : Cluster) : Cluster :=
  if c.occupant = some tenant then { c.handOver with occupant := none } else c

def State.vacate (s : State) (tenant : Nat) : State :=
  { s with clusters := s.clusters.map fun e => (e.1, e.2.vacate tenant) }

/-- Release a binding with its staged values and PEER sessions (R305, R312, R329). -/
def State.release_ (s : State) (tenant : Nat) : State :=
  match (s.tenant tenant).binding with
  | none => s
  | some b =>
    let s := s.unplace tenant b
    s.setTenant tenant { s.tenant tenant with binding := none, staged := [], peers := [] }

/-- Fill a tenant's apertures with zeros. -/
def State.wipe (s : State) (tenant : Nat) : State :=
  (s.tenant tenant).apertures.foldl (fun s a =>
    match s.physOf a.die a.cluster with
    | some p => if a.valid then s.modCluster a.die p fun c => c.zero a.lo (a.size * 4096) else s
    | none => s) s

/-- The write ports of every slice of a tenant's apertures are idle on the beat in progress (R181). -/
def State.wipeReady (s : State) (tenant : Nat) : Bool :=
  (s.tenant tenant).apertures.all fun a =>
    match s.physOf a.die a.cluster with
    | some p => !a.valid || s.portIdle a.die p a.slice true
    | none => true

/-- CLOSE (R305). The zero fill waits for a beat on which the write ports are idle (notes/assumptions/108.md). -/
def execClose (h : CmdHead) (tenant : Nat) (s : State) : Host.Outcome State Fault Refusal :=
  done s (
    let u := s.tenant tenant
    if tenant ≠ h.tenant && (u.xfer.isSome || u.stopping.isSome) then s
    else s.command h (closeForm tenant) (s.judge h (fits tenant 8) true (u.st ≠ .closed && u.st ≠ .running) (
      if tenant = 0 then s.reply_ h .bounds
      else if !s.wipeReady tenant then s
      else
        let s := (((s.countEth 5 u.commands).release_ tenant).wipe tenant).vacate tenant
        (s.setTenant tenant Tenant.init).reply_ h .ok)))

/-! WRITE and READ (R287, R288). -/

def xferLegal (x : XferArgs) : Bool :=
  fits x.apt 8 && fits x.offset 32 && 1 ≤ x.n && x.n ≤ 67108864 && fits x.tseq 32

/-- The range check of R287: the aperture that holds the range. -/
def Tenant.range (t : Tenant) (apt offset n : Nat) : Option Aperture :=
  match t.aperture apt with
  | some a => if offset + n ≤ a.size * 4096 then some a else none
  | none => none

def readXfer (f : List Byte) : XferArgs :=
  { apt := fieldAt f 0 1, offset := fieldAt f 4 4, n := fieldAt f 8 4, tseq := fieldAt f 12 4, chkreq := fieldAt f 1 1 % 2 = 1 }

def XferArgs.bytes_ (x : XferArgs) : List Byte :=
  leBytes 1 x.apt ++ leBytes 1 (flagBit x.chkreq 0) ++ leBytes 2 0 ++ leBytes 4 x.offset ++ leBytes 4 x.n ++ leBytes 4 x.tseq

/-- WRITE and READ, by CODE. -/
def xferForm (code : Nat) (x : XferArgs) : CmdForm :=
  { code := code, reads := fun f => readXfer f = x, fields := XferArgs.bytes_ x, fabric := true, tseq := x.tseq }

/-- The checks of a transfer; its completion record carries its TSEQ (R286). -/
def State.judgeXfer (s : State) (h : CmdHead) (x : XferArgs) (go : Aperture → State) : State :=
  let answer := fun (st : Status) => s.complete h st none x.tseq 0 []
  if !xferLegal x then answer .unsupported
  else
    match (s.tenant h.tenant).range x.apt x.offset x.n with
    | none => answer .bounds
    | some a => go a

/-- Begin a transfer: a WRITE takes the segments that have come, and units leave the Ethernet station as the window allows. -/
def State.beginXfer (s : State) (h : CmdHead) (x : XferArgs) (a : Aperture) (isWrite : Bool) : State :=
  let r : Xfer :=
    { head := h, isWrite := isWrite, die := a.die, cluster := a.cluster, addr := a.lo + x.offset, n := x.n,
      tseq := x.tseq, chk := x.chkreq, next := 0, waiting := [], refused := 0, firstBad := none,
      anyFault := false, anyDark := false, bounds := false, data := [], taken := 0, got := [], sent := 0 }
  ((s.setTenant h.tenant { s.tenant h.tenant with xfer := some r }).feed h.tenant).touch

/-- The DATA payloads that follow the command at the front of a tenant's queue. -/
def State.segments (s : State) (tenant : Nat) : List (List Byte) :=
  match (s.tenant tenant).turn with
  | some y => ((y.queue.drop 1).takeWhile fun e => e.2.1 = 4).map (·.2.2)
  | none => []

/-- WRITE (R287): `segs` are the DATA payloads that have come behind it; those that come later follow them. -/
def execWrite (h : CmdHead) (x : XferArgs) (segs : List (List Byte)) (s : State) : Host.Outcome State Fault Refusal :=
  done s (
    if s.segments h.tenant ≠ segs then s
    else s.command h (xferForm 0x04 x) (s.judgeXfer h x fun a => s.beginXfer h x a true))

/-- READ (R288). -/
def execRead (h : CmdHead) (x : XferArgs) (s : State) : Host.Outcome State Fault Refusal :=
  done s (s.command h (xferForm 0x05 x) (s.judgeXfer h x fun a => s.beginXfer h x a false))

/-! PATCH, ARM, LAUNCH_AT and STOP. -/

/-- Exposures of the present run whose end the package has arrived at (R166). -/
def Run.arrived (r : Run) : Nat :=
  match r.phase with
  | .waitLaunch => 0
  | .inExposure => r.exp
  | .boundary => r.exp + 1

def patchEntryLegal (e : PatchEntry) : Bool := fits e.cl 8 && e.reg < 64

/-- A PATCH of a Running tenant is late (R166). -/
def Tenant.patchLate (t : Tenant) (x : Nat) : Bool :=
  match t.run with
  | some r => t.st = .running && x ≤ r.arrived
  | none => false

def readPatch (f : List Byte) : Nat × List PatchEntry :=
  (fieldAt f 0 4, (List.range (fieldAt f 4 2)).map fun i =>
    { cl := fieldAt f (6 + 8 * i) 1, reg := fieldAt f (7 + 8 * i) 1, value := BitVec.ofNat 32 (fieldAt f (10 + 8 * i) 4) })

def patchForm (x : Nat) (entries : List PatchEntry) : CmdForm :=
  { code := 0x08, reads := fun f => readPatch f = (x, entries),
    fields := leBytes 4 x ++ leBytes 2 entries.length ++ entries.flatMap fun e =>
      leBytes 1 e.cl ++ leBytes 1 e.reg ++ leBytes 2 0 ++ wordBytes e.value }

/-- A command without fields. -/
def bareForm (code : Nat) (fabric : Bool) : CmdForm := { code := code, reads := fun _ => true, fields := [], fabric := fabric }

def launchForm (time : DWord) : CmdForm :=
  { code := 0x0A, reads := fun f => fieldAt f 0 8 = time.toNat, fields := leBytes 8 time.toNat }

def stopForm (mode x : Nat) : CmdForm :=
  { code := 0x0B, reads := fun f => fieldAt f 0 1 = mode && fieldAt f 4 4 = x,
    fields := leBytes 1 mode ++ leBytes 3 0 ++ leBytes 4 x }

def budgetForm (ns : Nat) (pkg : Bool) : CmdForm :=
  { code := 0x0D, reads := fun f => fieldAt f 0 4 = ns && decide (fieldAt f 4 1 % 2 = 1) = pkg,
    fields := leBytes 4 ns ++ leBytes 1 (flagBit pkg 0) }

/-- SET_POWER, by ACTION and what R300 puts after it. -/
def powerForm (action : Nat) (reads : List Byte → Bool) (rest : List Byte) (fabric : Bool) : CmdForm :=
  { code := 0x0E, reads := fun f => fieldAt f 0 1 = action && reads f, fields := leBytes 1 action ++ rest, fabric := fabric }

def limitForm (watts : Nat) : CmdForm :=
  powerForm 0 (fun f => fieldAt f 2 2 = watts) (leBytes 1 0 ++ leBytes 2 watts) false

def stateForm (state : Nat) : CmdForm := powerForm 1 (fun f => fieldAt f 1 1 = state) (leBytes 1 state) false

def sliceForm (target die cluster slice : Nat) : CmdForm :=
  powerForm 2 (fun f => fieldAt f 1 1 = target && fieldAt f 2 1 % 64 = cluster + 32 * die && fieldAt f 3 1 = slice)
    (leBytes 1 target ++ leBytes 1 (cluster % 32 + die % 2 * 32) ++ leBytes 1 slice) true

def attestForm (nonce : List Byte) : CmdForm :=
  { code := 0x0F, reads := fun f => (f.take 32) = nonce, fields := nonce ++ leBytes (32 - nonce.length) 0 }

/-- TOPOLOGY, by KIND. -/
def topologyForm (kind apt offset len : Nat) : CmdForm :=
  { code := 0x10,
    reads := fun f => fieldAt f 0 1 = kind && fieldAt f 1 1 = apt && fieldAt f 4 4 = offset && fieldAt f 8 4 = len,
    fields := leBytes 1 kind ++ leBytes 1 apt ++ leBytes 2 0 ++ leBytes 4 offset ++ leBytes 4 len, fabric := true }

def epochForm (dies : Nat) : CmdForm :=
  { code := 0x11, reads := fun f => fieldAt f 0 1 = dies, fields := leBytes 1 dies, fabric := true }

/-- PATCH (R166, R167). -/
def execPatch (h : CmdHead) (x : Nat) (entries : List PatchEntry) (s : State) : Host.Outcome State Fault Refusal :=
  done s (s.command h (patchForm x entries) (
    let t := s.tenant h.tenant
    s.judge h (fits x 32 && 1 ≤ entries.length && entries.length ≤ 512 && entries.all patchEntryLegal) false
      (t.st = .bound || t.st = .armed || t.st = .running || t.st = .halted) (
      match t.binding with
      | none => s.reply_ h .state
      | some b =>
        if entries.any fun e => (b.place e.cl).isNone then s.reply_ h .bounds
        else if t.patchLate x then s.reply_ h .late
        else (s.setTenant h.tenant { t with staged := t.staged ++ [(x, entries)] }).reply_ h .ok)))

/-- Every slice the plate declares is ON (R307). -/
def State.slicesOn (s : State) (b : Binding) : Bool :=
  b.slices.all fun x => match b.place x.1 with
    | some (die, p) => ((s.cluster die p).slice x.2).st = .on
    | none => false

/-- ARM (R307). -/
def execArm (h : CmdHead) (s : State) : Host.Outcome State Fault Refusal :=
  done s (s.command h (bareForm 0x09 true) (
    let t := s.tenant h.tenant
    s.judge h true false (t.st = .bound || t.st = .halted) (
      match t.binding with
      | none => s.reply_ h .state
      | some b =>
        if s.slicesOn b then ((s.setTenant h.tenant { t with st := .armed }).reply_ h .ok).touch
        else s.reply_ h .dark)))

/-- A run that waits for its launch time. -/
def Run.start (time : DWord) : Run :=
  { launch := time, tlaunch := time, phase := .waitLaunch, exp := 0, gate := none, beats := [], done := [],
    halting := none, arrival := time, stamps := [], stopAfter := none, stopped := false, late := 0, exps := 0,
    xwait := 0, stretch := 0, hold := 0, fgate := 0, short := 0, rated := true, emerg := false, lockLoss := false,
    energy0 := 0, energyExp := 0, emax := 0, emaxIdx := 0, summary := Summary.init, ended := false, tend := time }

/-- A launch time of a rotating tenant lies in an owned slot with room for an exposure (R316). -/
def State.launchFits (s : State) (tenant : Nat) (b : Binding) (time : DWord) : Bool :=
  match s.schedule with
  | none => true
  | some x =>
    let n := x.slotsSince time
    !b.rotating || (x.nslot ≠ 0 && x.slotns ≠ 0 && reached time x.s0 && x.owns tenant b (n % x.nslot) &&
      reached time (x.slotStart n + nsUnits 1300) &&
      reached (x.slotStart (n + 1)) (time + BitVec.ofNat 64 b.bound))

/-- The board's or system's lock is missing (R58). -/
def State.unlocked (s : State) (b : Binding) : Bool :=
  (b.scope = 1 && !s.clock.lock) || (b.scope = 2 && !s.clock.sysLock)

/-- LAUNCH_AT (R57, R58, R316): the run is accepted, and begins at T. -/
def execLaunchAt (h : CmdHead) (time : DWord) (s : State) : Host.Outcome State Fault Refusal :=
  done s (s.command h (launchForm time) (
    let t := s.tenant h.tenant
    s.judge h true false (t.st = .armed) (
      match t.binding with
      | none => s.reply_ h .state
      | some b =>
        if s.unlocked b then s.reply_ h .fault
        else if !laterThan time (s.clock.sid + nsUnits (s.power.st.exitNs + 1205)) then s.reply_ h .late
        else if !s.launchFits h.tenant b time then s.reply_ h .bounds
        else (s.setTenant h.tenant { t with st := .running, run := some (Run.start time) }).reply_ h .ok)))

/-- The run has issued its last plate beat. -/
def State.lastIssued (s : State) (tenant : Nat) (b : Binding) : Bool := b.exps * b.explen ≤ s.beatsOf tenant

/-- STOP (R308). MODE 0 halts the run on the next beat and completes when it has halted; MODE 1 completes on
acceptance. -/
def execStop (h : CmdHead) (mode x : Nat) (s : State) : Host.Outcome State Fault Refusal :=
  done s (s.command h (stopForm mode x) (
    let t := s.tenant h.tenant
    s.judge h (mode ≤ 1 && fits x 32) false (t.st = .armed || t.st = .running) (
      match t.run, t.binding with
      | some r, some b =>
        if t.st = .armed then (s.setTenant h.tenant { t with st := .bound }).reply_ h .ok
        else if mode = 1 && b.exps ≤ x + 1 then s.setTenant h.tenant { t with stopping := some h }
        else if mode = 1 then
          let at_ := match r.stopAfter with
            | some y => if x < y then x else y
            | none => x
          (s.setTenant h.tenant { t with run := some { r with stopAfter := some at_ } }).reply_ h .ok
        else
          let t := { t with stopping := some h }
          if r.halting.isSome || s.lastIssued h.tenant b then s.setTenant h.tenant t
          else
            let n := s.beatsOf h.tenant
            let s := s.setTenant h.tenant { t with run := some { r with stopped := true } }
            s.haltRun h.tenant n .ok 0 true
      | _, _ =>
        if t.st = .armed then (s.setTenant h.tenant { t with st := .bound }).reply_ h .ok else s.reply_ h .state)))

/-! QUERY and the power commands. -/

/-- QUERY (R300). -/
def execQuery (h : CmdHead) (s : State) : Host.Outcome State Fault Refusal :=
  done s (s.command h (bareForm 0x0C false) (
    let t := s.tenant h.tenant
    let ran := fun (f : Run → Word) => match t.run with
      | some r => wordBytes (f r)
      | none => leBytes 4 0
    s.complete h .ok none 0 0 (leBytes 1 t.st.code ++ leBytes 1 t.lastStatus.code ++
      leBytes 2 (flagBit t.lastStopped 0) ++ leBytes 8 (s.runBeats h.tenant) ++
      ran (·.exps) ++ ran (·.late) ++ ran (·.stretch) ++ ran (·.hold))))

/-- SET_WAKE_BUDGET (R373): the tenant's budget, or the package's by the operator. -/
def execSetWakeBudget (h : CmdHead) (ns : Nat) (pkg : Bool) (s : State) : Host.Outcome State Fault Refusal :=
  done s (s.command h (budgetForm ns pkg) (s.judge h (fits ns 32) pkg true (
    let s := if pkg then { s with power := { s.power with budgetPkg := BitVec.ofNat 32 ns } }
      else s.setTenant h.tenant { s.tenant h.tenant with budget := BitVec.ofNat 32 ns }
    s.reply_ h .ok)))

/-- SET_POWER ACTION 0 (R375). -/
def execSetPowerLimit (h : CmdHead) (watts : Nat) (s : State) : Host.Outcome State Fault Refusal :=
  done s (s.command h (limitForm watts) (s.judge h (fits watts 16) true true (
    ({ s with power := { s.power with limit := watts } }).reply_ h .ok)))

/-- A tenant is Armed or Running on the package. -/
def State.anyArmed (s : State) : Bool := s.tenants.any fun e => e.2.st = .armed || e.2.st = .running

/-- SET_POWER ACTION 1 (R375, R376): states 0 to 2 set the deepest state, and bring a Dark package back; state 3
orders entry to Dark. -/
def execSetPowerState (h : CmdHead) (state : Nat) (s : State) : Host.Outcome State Fault Refusal :=
  done s (s.command h (stateForm state) (s.judge h (state ≤ 3) true true (
    if state = 3 then
      if s.anyArmed then s.reply_ h .busy
      else if s.power.st = .dark then s.reply_ h .ok
      else s.enterDark.reply_ h .ok
    else
      let s := { s with power := { s.power with deepest := state } }
      let s := if s.power.st = .dark then s.askWake 0 else s
      s.reply_ h .ok)))

/-- A tenant holds a logical cluster: it has an aperture or a bound context in it (R303, notes/assumptions/71.md). -/
def Tenant.holdsCluster (t : Tenant) (die cluster : Nat) : Bool :=
  (t.apertures.any fun a => a.valid && a.die = die && a.cluster = cluster) ||
    t.binding.any fun b => b.sites.any fun x => x.die = die && x.logical = cluster

/-- SET_POWER ACTION 2 (R191, R300, R303, R307): the keeper sets the slice's target. -/
def execSetPowerSlice (h : CmdHead) (target die cluster slice : Nat) (s : State) : Host.Outcome State Fault Refusal :=
  done s (s.command h (sliceForm target die cluster slice) (s.judge h (target ≤ 2 && die ≤ 1 && fits cluster 5 && slice ≤ 3) (target ≠ 2) true (
    match s.physOf die cluster with
    | none => s.reply_ h .bounds
    | some p =>
      if h.tenant ≠ 0 && !(s.tenant h.tenant).holdsCluster die cluster then s.reply_ h .bounds
      else if target ≠ 2 && s.declared die p slice then s.reply_ h .busy
      else
        let keeper : Agent := { kind := .keeper, tenant := 0 }
        (((s.writeSpadPwr keeper die p slice (BitVec.ofNat 32 target)).1).reply_ h .ok).touch)))

/-! ATTEST (R399 to R401). -/

/-- The report body. -/
def State.report (s : State) (tenant : Nat) (nonce : List Byte) : List Byte :=
  let t := s.tenant tenant
  let plate : BitVec 384 := match t.plate with
    | some p => p.digest
    | none => 0
  leBytes 4 1 ++ leBytes 2 s.boot.meridianSvn ++ leBytes 2 s.boot.almanacSvn ++ leBytes 8 s.part.serial.toNat ++
    leBytes 1 s.part.grade ++ leBytes 1 s.part.step ++ leBytes 1 tenant ++ leBytes 1 t.st.code ++ nonce ++
    leBytes 8 s.clock.sid.toNat ++ wordBytes (s.topoGen 0) ++
    ((List.range 11).map fun i => leBytes 48 (Tab.get 0 s.fw.meas i).toNat).flatten ++ leBytes 48 plate.toNat

/-- Bytes in RDATA segments of at most 8,192, with offsets counted from the first byte of the whole. -/
def State.sendRdata (s : State) (h : CmdHead) (off : Nat) (bs : List Byte) : State :=
  (List.range (segmentsOf bs.length)).foldl (fun s j =>
    let g := (bs.drop (8192 * j)).take 8192
    s.sendPacket h.tenant 0x5 (segHead h.seq (off + 8192 * j) g.length ++ g)) s

/-- A certificate after its length. -/
def certBytes (bs : List Byte) : List Byte := leBytes 4 bs.length ++ bs

/-- ATTEST: the body and DIK-S's signature in the RSP, DIK-Q's signature and the certificates in RDATA (R401). -/
def execAttest (h : CmdHead) (nonce : List Byte) (s : State) : Host.Outcome State Fault Refusal :=
  done s (s.command h (attestForm nonce) (s.judge h (nonce.length = 32) false true (
    let body := s.report h.tenant nonce
    let digest := Config.sha384 body
    let part := s.part.serial.toNat
    let sig := Config.slhSign part digest
    let s := s.complete h .ok none 0 0 (body ++ Config.rsaSign part digest)
    let s := s.sendRdata h 0 sig
    s.sendRdata h sig.length (certBytes (Config.vendorCert part 0) ++ certBytes (Config.vendorCert part 1)))))

/-! TOPOLOGY (R256, R291, R313, R317) and EPOCH (R209). -/

/-- Bytes of a range of a tenant's aperture. -/
def State.loaderRead (s : State) (a : Aperture) (offset len : Nat) : List Byte :=
  match s.physOf a.die a.cluster with
  | some p => (s.cluster a.die p).read (a.lo + offset) len
  | none => List.replicate len 0

/-- The loader reads a range of a tenant's aperture through its window (R181, R185, R186, R193, R311), all of it on one beat on
which the read port is idle: on another the command still waits. A dark slice completes the command with DARK and an
uncorrectable word with FAULT (notes/assumptions/108.md). -/
def State.loaderFetch (s : State) (h : CmdHead) (a : Aperture) (offset len : Nat) (go : State → List Byte → State) : State :=
  match s.physOf a.die a.cluster with
  | none => s.reply_ h .bounds
  | some p =>
    let lo := a.lo + offset
    let c := s.cluster a.die p
    if (c.slice a.slice).darkFor 40 (s.regionOf a.die p).beat then
      (s.countDark a.die p lo 40 h.tenant false).reply_ h .dark
    else if !s.portIdle a.die p a.slice false then s
    else
      let t := (s.takePort a.die p a.slice false).readCounts a.die p lo len h.tenant
      if (c.uesIn lo len).isEmpty then go t (s.loaderRead a offset len) else t.reply_ h .fault

def topologyLegal (apt offset len : Nat) : Bool := fits apt 8 && fits offset 32 && fits len 32

/-- The record a TOPOLOGY command names. -/
def State.topology (s : State) (h : CmdHead) (kind apt offset len : Nat) (go : State → List Byte → State) : State :=
  s.command h (topologyForm kind apt offset len) (s.judge h (topologyLegal apt offset len) true true (
    match (s.tenant h.tenant).range apt offset len with
    | none => s.reply_ h .bounds
    | some a => s.loaderFetch h a offset len go))

/-- Complete a TOPOLOGY command with its record's digest. -/
def State.topologyDone (s : State) (h : CmdHead) (bs : List Byte) : State :=
  (s.complete h .ok none 0 0 (leBytes 4 (Config.sha384 bs).toNat)).touch

/-- A TOPOLOGY record that is refused; the reason is that of a section whose bytes break the rules of its content
(R303, notes/assumptions/121.md). -/
def State.topologyRefused (s : State) (h : CmdHead) : State := s.complete h .verify none 0 0 (leBytes 2 0x0302)

abbrev FarList := List ((Nat × Nat × Nat) × Option (Nat × Nat × Nat))

/-- The three conditions of R256. -/
def boardRecordOk (far : FarList) : Bool :=
  let used := far.filterMap fun e => e.2.map fun x => (e.1, x)
  let once := fun (xs : List (Nat × Nat × Nat)) => xs.eraseDups.length = xs.length
  let pair := fun (e : (Nat × Nat × Nat) × (Nat × Nat × Nat)) =>
    let b := used.filter fun f => f.1.1 = e.1.1 && f.2.1 = e.2.1
    b.length ≤ 8 && (List.range 2).all fun d => (b.any fun f => f.1.2.1 = d) && b.any fun f => f.2.2.1 = d
  once (far.map (·.1)) && once (used.map (·.2)) && used.all pair

/-- Links that are OPEN, SPARE or QUAR are evaluated again (R260). -/
def State.reevaluate (s : State) : State :=
  (List.range 48).foldl (fun s n =>
    let l := s.link (n / 24) (n % 24)
    match l.peer with
    | some r => if l.st = .opened || l.st = .spare || l.st = .quar then s.settleLink (n / 24) (n % 24) r else s
    | none => s) s

def State.measureAt (s : State) (i : Nat) (bs : List Byte) : State :=
  { s with fw := { s.fw with meas := Tab.set 0 s.fw.meas i (Config.sha384 bs) } }

/-- TOPOLOGY KIND 0 (R256, R436). -/
def execTopologyBoard (h : CmdHead) (apt offset len : Nat) (s : State) : Host.Outcome State Fault Refusal :=
  done s (s.topology h 0 apt offset len fun s bs =>
    match Config.boardRecord bs with
    | none => s.topologyRefused h
    | some (far, pins, io) =>
      if !boardRecordOk far then s.topologyRefused h
      else
        let slots := (far.map fun e => e.1.1).eraseDups
        let b : Board := { far := far, pins := pins, slots := slots, digest := Config.sha384 bs }
        let s := { s with board := some b,
                          pins := { s.pins with slewAvs := io % 4, slewTdo := io / 4 % 4, slewStat := io / 16 % 4 } }
        ((s.measureAt 6 bs).reevaluate).topologyDone h bs)

/-- TOPOLOGY KIND 1 (R291, R294). -/
def execTopologySystem (h : CmdHead) (apt offset len : Nat) (s : State) : Host.Outcome State Fault Refusal :=
  done s (s.topology h 1 apt offset len fun s bs =>
    match Config.systemRecord bs with
    | none => s.topologyRefused h
    | some (board, ackt, packages) =>
      let r : SysRec := { board := board, ackt := ackt, packages := packages, digest := Config.sha384 bs }
      (({ s with sys := some r }).measureAt 7 bs).topologyDone h bs)

/-- A schedule record (R313). -/
def parseSchedule (bs : List Byte) : Option Sched :=
  let nslot := leNat (bs.take 2)
  let slotns := leNat ((bs.drop 4).take 4)
  let s0 := leNat ((bs.drop 8).take 8)
  let entry := fun (k : Nat) => leNat ((bs.drop (16 + 2 * k)).take 2)
  let n := nslot * 48
  let owner := (List.range n).foldl (fun (t : Tab Nat) k => Tab.set 0xFFFF t k (entry k)) []
  let legal := (List.range n).all fun k => entry k < 256 || entry k = 0xFFFF
  if 1 ≤ nslot && nslot ≤ 1024 && 4000 ≤ slotns && slotns ≤ 16777215 && bs.length = 16 + 2 * n && legal &&
      leNat ((bs.drop 2).take 2) = 0 then
    some { nslot := nslot, slotns := slotns, s0 := BitVec.ofNat 64 s0, owner := owner, digest := Config.sha384 bs }
  else none

/-- A Bound or Halted tenant would be left with no owned slot (R317). -/
def State.leftOut (s : State) (x : Sched) : Bool :=
  s.tenants.any fun e => (e.2.st = .bound || e.2.st = .halted) && match e.2.binding with
    | some b => !(List.range x.nslot).any fun j => x.owns e.1 b j
    | none => false

/-- TOPOLOGY KIND 2 (R313, R317): the new schedule waits for its S0. -/
def execTopologySchedule (h : CmdHead) (apt offset len : Nat) (s : State) : Host.Outcome State Fault Refusal :=
  done s (s.topology h 2 apt offset len fun s bs =>
    match parseSchedule bs with
    | none => s.topologyRefused h
    | some x =>
      if s.anyArmed || s.leftOut x then s.reply_ h .busy
      else if !reached x.s0 (s.clock.sid + nsUnits 1000000) then s.reply_ h .late
      else ({ s with nextSched := some x }).topologyDone h bs)

/-- A die has a drain or a flip pending. -/
def State.flipping (s : State) (die : Nat) : Bool :=
  let d := s.dieOf die
  d.draining || d.flipAt.isSome || d.rewant

/-- EPOCH (R209): new tables and a flip on each die named. -/
def execEpoch (h : CmdHead) (dies : Nat) (s : State) : Host.Outcome State Fault Refusal :=
  done s (s.command h (epochForm dies) (s.judge h (dies ≤ 3) true true (
    let named := (List.range 2).filter fun d => bitSet dies d
    if named.any s.flipping then s.reply_ h .busy
    else ((named.foldl State.reroute s).reply_ h .ok).touch)))

end Sys2Proof.Machine
end

