-- ==== Sys2Proof/Machine/Words.lean ====
section
/-!
DEFINITION. The words of a line: slots as R74, R77, R104, R124, R125, R137, R159, R164, R170, R172 and R173 encode them,
control words (R156), and the reasons a word is refused with (R446).
-/

namespace Sys2Proof.Machine

/-- A slot of a line. `op` is the OP field where one form holds several operations. -/
inductive Slot where
  | scalar (pos0 pos1 : Word)
  | stream (f : StreamSlot)
  | load (op : Nat) (f : LoadSlot)
  | cnvSet (f : SetSlot)
  | tload (f : TloadSlot)
  | vec (op : Nat) (f : VecSlot)
  | vmem (op : Nat) (f : VmemSlot)
  | store (op : Nat) (f : StoreSlot)
  | bulk (op : Nat) (f : BulkSlot)
  | sync (op : Nat) (f : SyncSlot)
  | topk (f : TopkSlot)
  | ixld (f : IxldSlot)
  | gather (f : GatherSlot)
  | scatter (f : ScatterSlot)
  | param (op : Nat) (f : ParamSlot)
  deriving DecidableEq, Repr

/-- The slot kind of R155. -/
def Slot.kind : Slot → Nat
  | .scalar _ _ => 0
  | .stream f => f.arr + 1
  | .load _ _ => 5
  | .cnvSet _ => 9
  | .tload _ => 9
  | .vec _ f => f.core + 3
  | .vmem _ f => f.core + 3
  | .store _ _ => 6
  | .bulk _ _ => 7
  | .sync _ _ => 8
  | .topk _ => 10
  | .ixld _ => 10
  | .gather _ => 10
  | .scatter _ => 10
  | .param _ _ => 11

/-- Fields from the least significant bit up: value and width. -/
def packFields : List (Nat × Nat) → Nat
  | [] => 0
  | (v, n) :: fs => v + 2 ^ n * packFields fs

/-- The word of a slot. -/
def Slot.encode : Slot → Nat
  | .scalar a b => packFields [(a.toNat, 32), (b.toNat, 32)]
  | .stream f => packFields [(1, 4), (f.wfmt, 4), (f.tb, 1), (f.acc, 2), (f.pa, 6), (f.pb, 6), (f.ps, 6), (f.po, 6),
      (f.nm1, 16), (f.accbase, 11)]
  | .load op f => packFields [(op, 4), (f.arr, 1), (f.tb, 1), (f.sfmt, 4), (f.pa, 6), (f.pb, 6), (f.ps, 6), (f.pitch, 16)]
  | .cnvSet f => packFields [(1, 4), (f.arr, 1), (f.ofmt, 4), (f.rnd, 1), (f.ovm, 1), (f.chm, 1), (f.clipen, 1), (f.psc, 6),
      (f.pbi, 6), (f.plo, 6), (f.phi, 6), (f.pix, 6), (f.pso, 6)]
  | .tload f => packFields [(2, 4), (f.arr, 1), (f.pa, 6), (f.km1, 11), (f.tbase, 11)]
  | .vec op f => packFields [(op, 8), (f.vd, 5), (f.va, 5), (f.vb, 5), (f.vc, 5), (f.pk, 1), (f.sb, 1), (f.pp, 6),
      (f.row, 8), (f.pair, 1)]
  | .vmem op f => packFields [(op, 8), (f.vr, 5), (f.pa, 6), (f.fmt, 4), (f.pk, 1), (f.rnd, 1), (f.ovm, 1), (f.pix, 6),
      (f.off, 16)]
  | .store op f => packFields [(op, 4), (f.ps, 6), (f.pd, 6), (f.nm1, 16)]
  | .bulk op f => packFields [(op, 4), (f.pa, 6), (f.nm1, 16), (f.chk, 1), (f.pq, 6), (f.pda, 6)]
  | .sync op f => packFields [(op, 4), (f.flag, 8), (f.remote, 1), (f.tcl, 5), (f.tdie, 1), (f.tpkg, 4), (f.pt, 6),
      (f.scope, 2)]
  | .topk f => packFields [(1, 4), (f.vc, 1), (f.xb, 2), (f.kfmt, 1), (f.pa, 6), (f.pib, 6), (f.cm1, 12), (f.km1, 6),
      (f.outen, 1), (f.po, 6)]
  | .ixld f => packFields [(2, 4), (f.vc, 1), (f.xb, 2), (f.pa, 6)]
  | .gather f => packFields [(3, 4), (f.vc, 1), (f.xb, 2), (f.pw, 6), (f.po, 6), (f.pn, 6), (f.gm1, 6), (f.nbm1, 6),
      (f.stride, 16)]
  | .scatter f => packFields [(4, 4), (f.vc, 1), (f.pl, 6), (f.ps, 6), (f.po, 6), (f.pm, 6), (f.tm1, 12), (f.dm1, 8),
      (f.cm1, 8), (f.pf, 6)]
  | .param op f => packFields [(op, 4), (f.pd, 6), (f.pa, 6), (f.nm1, 4), (f.imm, 32)]

def parseStream (arr w : Nat) : StreamSlot :=
  { arr := arr, wfmt := fld w 4 4, tb := fld w 8 1, acc := fld w 9 2, pa := fld w 11 6, pb := fld w 17 6, ps := fld w 23 6,
    po := fld w 29 6, nm1 := fld w 35 16, accbase := fld w 51 11 }

def parseLoad (w : Nat) : LoadSlot :=
  { arr := fld w 4 1, tb := fld w 5 1, sfmt := fld w 6 4, pa := fld w 10 6, pb := fld w 16 6, ps := fld w 22 6,
    pitch := fld w 28 16 }

def parseSet (w : Nat) : SetSlot :=
  { arr := fld w 4 1, ofmt := fld w 5 4, rnd := fld w 9 1, ovm := fld w 10 1, chm := fld w 11 1, clipen := fld w 12 1,
    psc := fld w 13 6, pbi := fld w 19 6, plo := fld w 25 6, phi := fld w 31 6, pix := fld w 37 6, pso := fld w 43 6 }

def parseTload (w : Nat) : TloadSlot :=
  { arr := fld w 4 1, pa := fld w 5 6, km1 := fld w 11 11, tbase := fld w 22 11 }

def parseVec (core w : Nat) : VecSlot :=
  { core := core, vd := fld w 8 5, va := fld w 13 5, vb := fld w 18 5, vc := fld w 23 5, pk := fld w 28 1, sb := fld w 29 1,
    pp := fld w 30 6, row := fld w 36 8, pair := fld w 44 1 }

def parseVmem (core w : Nat) : VmemSlot :=
  { core := core, vr := fld w 8 5, pa := fld w 13 6, fmt := fld w 19 4, pk := fld w 23 1, rnd := fld w 24 1, ovm := fld w 25 1,
    pix := fld w 26 6, off := fld w 32 16 }

def parseStore (w : Nat) : StoreSlot := { ps := fld w 4 6, pd := fld w 10 6, nm1 := fld w 16 16 }

def parseBulk (w : Nat) : BulkSlot :=
  { pa := fld w 4 6, nm1 := fld w 10 16, chk := fld w 26 1, pq := fld w 27 6, pda := fld w 33 6 }

def parseSync (w : Nat) : SyncSlot :=
  { flag := fld w 4 8, remote := fld w 12 1, tcl := fld w 13 5, tdie := fld w 18 1, tpkg := fld w 19 4, pt := fld w 23 6,
    scope := fld w 29 2 }

def parseTopk (w : Nat) : TopkSlot :=
  { vc := fld w 4 1, xb := fld w 5 2, kfmt := fld w 7 1, pa := fld w 8 6, pib := fld w 14 6, cm1 := fld w 20 12,
    km1 := fld w 32 6, outen := fld w 38 1, po := fld w 39 6 }

def parseIxld (w : Nat) : IxldSlot := { vc := fld w 4 1, xb := fld w 5 2, pa := fld w 7 6 }

def parseGather (w : Nat) : GatherSlot :=
  { vc := fld w 4 1, xb := fld w 5 2, pw := fld w 7 6, po := fld w 13 6, pn := fld w 19 6, gm1 := fld w 25 6,
    nbm1 := fld w 31 6, stride := fld w 37 16 }

def parseScatter (w : Nat) : ScatterSlot :=
  { vc := fld w 4 1, pl := fld w 5 6, ps := fld w 11 6, po := fld w 17 6, pm := fld w 23 6, tm1 := fld w 29 12,
    dm1 := fld w 41 8, cm1 := fld w 49 8, pf := fld w 57 6 }

def parseParam (w : Nat) : ParamSlot :=
  { pd := fld w 4 6, pa := fld w 10 6, nm1 := fld w 16 4, imm := fld w 20 32 }

/-- The operations of the arithmetic form (R126). -/
def vecOps : List Nat := [0x01, 0x02, 0x03, 0x04, 0x05, 0x06, 0x08, 0x09, 0x0A, 0x0B, 0x0C, 0x0D, 0x0E, 0x10, 0x11, 0x12, 0x18]

/-- The slot a word of a slot kind stands for; none for a reserved OP. Reserved bits are not looked at. -/
def parseSlot (kind w : Nat) : Option Slot :=
  let op := fld w 0 4
  match kind with
  | 0 => some (.scalar (BitVec.ofNat 32 (fld w 0 32)) (BitVec.ofNat 32 (fld w 32 32)))
  | 1 => if op = 1 then some (.stream (parseStream 0 w)) else none
  | 2 => if op = 1 then some (.stream (parseStream 1 w)) else none
  | 5 => if op = 1 || op = 2 then some (.load op (parseLoad w)) else none
  | 6 => if 1 ≤ op && op ≤ 4 then some (.store op (parseStore w)) else none
  | 7 => if op = 1 || op = 2 then some (.bulk op (parseBulk w)) else none
  | 8 => if 1 ≤ op && op ≤ 6 then some (.sync op (parseSync w)) else none
  | 9 => if op = 1 then some (.cnvSet (parseSet w)) else if op = 2 then some (.tload (parseTload w)) else none
  | 10 =>
    match op with
    | 1 => some (.topk (parseTopk w))
    | 2 => some (.ixld (parseIxld w))
    | 3 => some (.gather (parseGather w))
    | 4 => some (.scatter (parseScatter w))
    | _ => none
  | 11 => if 1 ≤ op && op ≤ 3 then some (.param op (parseParam w)) else none
  | _ =>
    let core := kind - 3
    let op := fld w 0 8
    if kind ≠ 3 && kind ≠ 4 then none
    else if vecOps.contains op then some (.vec op (parseVec core w))
    else if 0x20 ≤ op && op ≤ 0x22 then some (.vmem op (parseVmem core w))
    else none

/-- A wait slot (R173). -/
def Slot.waits : Slot → Bool
  | .sync op _ => op = 3 || op = 4
  | _ => false

/-- The x register a position writes; none for x0 and for a store. -/
def RvOp.rd : RvOp → Option Nat
  | .alu _ rd _ _ => if rd = 0 then none else some rd
  | .lui rd _ => if rd = 0 then none else some rd
  | .load _ _ rd _ _ => if rd = 0 then none else some rd
  | .store _ _ _ _ => none

/-- The x registers a position reads, x0 apart. -/
def RvOp.srcs : RvOp → List Nat
  | .alu _ _ a (.reg b) => [a, b].filter (· ≠ 0)
  | .alu _ _ a (.imm _) => [a].filter (· ≠ 0)
  | .lui _ _ => []
  | .load _ _ _ a _ => [a].filter (· ≠ 0)
  | .store _ b a _ => [a, b].filter (· ≠ 0)

/-- Packed BF16 is allowed (R126). -/
def packOk (op : Nat) : Bool := 1 ≤ op && op ≤ 6

/-- A field its rule requires to be 0 in the case at hand, or a field value outside its table (R446: 0x0302). -/
def Slot.fieldBad : Slot → Bool
  | .scalar _ _ => false
  | .stream f => (!isMx f.wfmt && f.ps ≠ 0) || (!streamOuts f && f.po ≠ 0) || (f.acc = 0 && f.accbase ≠ 0)
  | .load _ f => !isMx f.sfmt && f.ps ≠ 0
  | .cnvSet f => (f.chm = 1 && f.pbi ≠ 0) || (f.clipen = 0 && (f.plo ≠ 0 || f.phi ≠ 0)) || (f.rnd = 0 && f.pix ≠ 0) ||
      (!isMx f.ofmt && f.pso ≠ 0)
  | .tload _ => false
  | .vec op f => (op ≠ 4 && f.vc ≠ 0) || (f.sb = 0 && op ≠ 0x18 && f.pp ≠ 0) ||
      (!(0x10 ≤ op && op ≤ 0x12) && f.row ≠ 0) || (op ≠ 0x18 && f.pair ≠ 0)
  | .vmem op f => (op = 0x22 && f.vr ≠ 0) || (f.rnd = 0 && f.pix ≠ 0)
  | .store op f => 3 ≤ op && 1024 ≤ f.nm1
  | .bulk op f => (f.chk = 0 && (f.pq ≠ 0 || f.pda ≠ 0)) || (op = 2 && f.pda ≠ 0) || f.pda = 63
  | .sync op f => 23 < f.tcl || (f.remote = 0 && f.tcl ≠ 0) || (!(op = 3 || op = 4) && f.pt ≠ 0) || f.scope = 3 ||
      (op ≠ 6 && f.scope ≠ 0)
  | .topk f => f.outen = 0 && f.po ≠ 0
  | .ixld _ => false
  | .gather _ => false
  | .scatter _ => false
  | .param op f => (op ≠ 3 && f.pa ≠ 0) || (op = 3 && f.nm1 ≠ 0) || 63 < f.pd + f.nm1

/-- Formats the vector memory form takes (R125). -/
def vmemFmt (fmt : Nat) : Bool := fmt ≤ 1 || (7 ≤ fmt && fmt ≤ 0xC)

/-- A format or a combination of fields that a rule refuses (R446: 0x0304). -/
def Slot.combinationBad : Slot → Bool
  | .scalar _ _ => false
  | .stream f => 0xC ≤ f.wfmt || (f.acc ≠ 0 && 2048 < f.accbase + f.nm1 + 1)
  | .load op f => 0xC ≤ f.sfmt || (if op = 1 then f.pitch * 16 < 64 * elemBits f.sfmt else decide (f.pitch ≠ 0))
  | .cnvSet f => 0xC < f.ofmt
  | .tload f => 2048 < f.tbase + f.km1 + 1
  | .vec op f => (f.pk = 1 && (!packOk op || f.sb = 1)) || (op = 0x11 && f.vb = f.vd)
  | .vmem op f => !vmemFmt f.fmt || (f.pk = 1 && (f.fmt ≠ 0xA || op = 0x22))
  | .store _ _ => false
  | .bulk _ _ => false
  | .sync op f => f.remote = 1 && (op = 3 || op = 4 || op = 6)
  | .topk f => f.cm1 < f.km1
  | .ixld _ => false
  | .gather _ => false
  | .scatter _ => false
  | .param _ _ => false

/-- A scalar slot that R159 refuses by its words. -/
def Slot.scalarBad : Slot → Bool
  | .scalar a b =>
    match decodePos a, decodePos b with
    | some x, some y => x.rd.isSome && x.rd = y.rd
    | _, _ => true
  | _ => false

/-- Why a slot is refused on its own; 0 when it is not. -/
def Slot.reason (s : Slot) : Nat :=
  if s.scalarBad then 0x0303 else if s.combinationBad then 0x0304 else if s.fieldBad then 0x0302 else 0

/-- Decode a slot word of a slot kind: the slot, or the reason it is refused with. A word with a nonzero reserved
field is not the word of the slot it parses to. -/
def decodeSlot (kind w : Nat) : Except Nat Slot :=
  match parseSlot kind w with
  | none => .error 0x0302
  | some s => if s.reason ≠ 0 then .error s.reason else if s.encode ≠ w then .error 0x0302 else .ok s

/-! Control words (R156). -/

/-- A control line's word. -/
inductive Control where
  | loop (w : LoopWord)
  | end_
  deriving DecidableEq, Repr

def Control.encode : Control → Nat
  | .loop w => packFields [(1, 4), (w.lc, 2), (w.exitend, 1), (0, 1), (w.target, 16), (w.cm1, 16)]
  | .end_ => 2

/-- Decode a control word (R156): refused with 0x0301 (R446). -/
def decodeControl (w : Nat) : Except Nat Control :=
  let c : Option Control :=
    match fld w 0 4 with
    | 1 => some (.loop { lc := fld w 4 2, exitend := fld w 6 1, target := fld w 8 16, cm1 := fld w 24 16 })
    | 2 => some .end_
    | _ => none
  match c with
  | none => .error 0x0301
  | some c => if c.encode = w then .ok c else .error 0x0301

/-! Lines (R151, R152). -/

/-- What a line holds. -/
inductive LineBody where
  | slots (xs : List Slot)
  | idle
  | control (c : Control)
  deriving DecidableEq, Repr

/-- A line of a program: its word address, its length in words, REP and what it holds. -/
structure Line where
  word : Nat
  words : Nat
  rep : Nat
  body : LineBody
  deriving DecidableEq, Repr

/-- Decode the slots of a line in ascending kind. -/
def decodeSlots : List (Nat × Nat) → Except Nat (List Slot)
  | [] => .ok []
  | (k, w) :: rest =>
    match decodeSlot k w with
    | .error e => .error e
    | .ok s =>
      match decodeSlots rest with
      | .error e => .error e
      | .ok ss => .ok (s :: ss)

/-- The slot kinds of a MASK. -/
def kindsOf (mask : Nat) : List Nat := (List.range 12).filter fun k => mask / 2 ^ k % 2 = 1

/-- The line at a byte offset of a LINE section: 0x0103 when it runs past the end, 0x0301 for a header of no form. -/
def decodeLine (bs : List Byte) (off : Nat) : Except Nat Line :=
  let header := leNat ((bs.drop off).take 4)
  let mask := header % 4096
  let len := header / 4096 % 16
  let rep := header / 65536
  let kinds := kindsOf mask
  let word := fun (j : Nat) => leNat ((bs.drop (off + 4 + 8 * j)).take 8)
  let words := if mask = 0 && len = 15 then 1 else len
  if bs.length < off + 4 || bs.length < off + 4 + 8 * words then .error 0x0103
  else
    let line := fun (b : LineBody) => ({ word := off / 4, words := 1 + 2 * words, rep := rep, body := b } : Line)
    if mask = 0 && len = 0 then .ok (line .idle)
    else if mask = 0 && len = 15 && rep = 0 then
      match decodeControl (word 0) with
      | .ok c => .ok (line (.control c))
      | .error e => .error e
    else if mask = 0 || len ≠ kinds.length then .error 0x0301
    else
      match decodeSlots (kinds.zip ((List.range len).map word)) with
      | .error e => .error e
      | .ok ss => if 0 < rep && ss.any Slot.waits then .error 0x0301 else .ok (line (.slots ss))

/-- The lines of a LINE section, one after another; `fuel` bounds their number. -/
def decodeLines (bs : List Byte) : Nat → Nat → Except Nat (List Line)
  | 0, _ => .ok []
  | fuel + 1, off =>
    if bs.length ≤ off then .ok []
    else
      match decodeLine bs off with
      | .error e => .error e
      | .ok l =>
        match decodeLines bs fuel (off + 4 * l.words) with
        | .error e => .error e
        | .ok ls => .ok (l :: ls)

/-- A program: the lines of a LINE section. -/
def decodeProgram (bs : List Byte) : Except Nat (List Line) := decodeLines bs (bs.length / 4 + 1) 0

end Sys2Proof.Machine
end

