-- ==== Sys2Proof/Machine/Container.lean ====
section
/-!
DEFINITION. The Fjarfel container (R321, R322): header, directory, sections, and what each section type holds (R323,
R325, R326, R328, R332), with the reasons its contents are refused with (R330, R446).
-/

namespace Sys2Proof.Machine

/-! Reasons. -/

/-- The first reason of a list that is not 0; 0 where every check passes. -/
def firstReason (xs : List Nat) : Nat := (xs.find? (· ≠ 0)).getD 0

/-- A reason where a check fails. -/
def refuse (bad : Bool) (reason : Nat) : Nat := if bad then reason else 0

/-- A little-endian field of n bytes at an offset. -/
def field (bs : List Byte) (off n : Nat) : Nat := leNat ((bs.drop off).take n)

/-! Header and directory (R321, R322). -/

/-- A directory entry. -/
structure Sect where
  typ : Nat
  cl : Nat
  pkg0 : Nat
  pkgn : Nat
  off : Nat
  len : Nat
  rest : Nat
  deriving DecidableEq, Repr

/-- The i-th directory entry of an image. -/
def sectAt (bs : List Byte) (i : Nat) : Sect :=
  let e := 16 + 24 * i
  { typ := field bs e 2, cl := field bs (e + 2) 2, pkg0 := field bs (e + 4) 4, pkgn := field bs (e + 8) 4,
    off := field bs (e + 12) 4, len := field bs (e + 16) 4, rest := field bs (e + 20) 4 }

def sections (bs : List Byte) : List Sect := (List.range (field bs 6 2)).map (sectAt bs)

/-- The bytes of a section. -/
def Sect.body (x : Sect) (bs : List Byte) : List Byte := (bs.drop x.off).take x.len

/-- PROF, XOUT and SIGN serve the whole plate. -/
def Sect.whole (x : Sect) : Bool := x.typ = 1 || x.typ = 8 || x.typ = 9

/-- LINE and PARM carry a cluster. -/
def Sect.perCluster (x : Sect) : Bool := x.typ = 3 || x.typ = 4

/-- DECL, PTCH, EPHM and FLAG cover every package. -/
def Sect.covering (x : Sect) : Bool := x.typ = 2 || x.typ = 5 || x.typ = 6 || x.typ = 7

/-- A section serves a package. -/
def Sect.serves (x : Sect) (q : Nat) : Bool := x.whole || (x.pkg0 ≤ q && q < x.pkg0 + x.pkgn)

/-- Reason of the header. -/
def headerReason (bs : List Byte) (len : Nat) : Nat :=
  let n := field bs 6 2
  refuse (bs.length < 16 || field bs 0 4 ≠ 0x4C504A46 || field bs 4 2 ≠ 1 || n < 3 || 1024 < n ||
    field bs 8 4 ≠ len || field bs 12 4 ≠ 0) 0x0101

/-- A directory entry's own fields. -/
def Sect.bad (x : Sect) : Bool :=
  x.typ < 1 || 9 < x.typ || x.rest ≠ 0 || x.off % 8 ≠ 0 ||
    (if x.perCluster then 47 < x.cl else x.cl ≠ 0xFFFF) ||
    (if x.whole then x.pkg0 ≠ 0 || x.pkgn ≠ 0 else x.pkgn = 0)

/-- Sections in ascending offset, none overlapping, from `at_` on, the last ending at `len`. -/
def inOrder (len : Nat) : Nat → List Sect → Bool
  | at_, [] => at_ = len
  | at_, x :: xs => at_ ≤ x.off && x.off + x.len ≤ len && inOrder len (x.off + x.len) xs

/-- Two package ranges meet. -/
def Sect.meets (x y : Sect) : Bool := x.pkg0 < y.pkg0 + y.pkgn && y.pkg0 < x.pkg0 + x.pkgn

/-- No two of a list are related. -/
def pairwise {α : Type} (apart : α → α → Bool) : List α → Bool
  | [] => true
  | x :: xs => xs.all (apart x) && pairwise apart xs

/-- The ranges of one type cover 0 to n − 1 without overlap. -/
def covers (n : Nat) (xs : List Sect) : Bool :=
  pairwise (fun x y => !x.meets y) xs && (xs.map (·.pkgn)).foldl (· + ·) 0 = n && xs.all fun x => x.pkg0 + x.pkgn ≤ n

/-- Sections of a type. -/
def ofType (xs : List Sect) (t : Nat) : List Sect := xs.filter fun x => x.typ = t

/-- Every LINE section has exactly one PARM section of its cluster and range, and the other way round. -/
def paired (xs : List Sect) : Bool :=
  let same := fun (x y : Sect) => x.cl = y.cl && x.pkg0 = y.pkg0 && x.pkgn = y.pkgn
  (ofType xs 3).all (fun x => (ofType xs 4).countP (same x) = 1) &&
    (ofType xs 4).all fun x => (ofType xs 3).countP (same x) = 1

/-- Reason of the directory. `npkg` is PROF's NPKG; where PROF itself is refused for it, the ranges are not held
against it (R446). -/
def directoryReason (bs : List Byte) (len npkg : Nat) (npkgOk : Bool) : Nat :=
  let xs := sections bs
  let ranges := fun (t : Nat) => ofType xs t
  refuse (len < 16 + 24 * xs.length || xs.any Sect.bad || !inOrder len (16 + 24 * xs.length) xs ||
    (ranges 1).length ≠ 1 || (ranges 9).length ≠ 1 || 1 < (ranges 8).length ||
    (xs.getLast?.map (·.typ)) ≠ some 9 || !paired xs ||
    !pairwise (fun x y => x.cl ≠ y.cl || !x.meets y) (ranges 3) ||
    (npkgOk && (!([2, 5, 6, 7].all fun t => covers npkg (ranges t)) ||
      (ranges 3).any fun x => npkg < x.pkg0 + x.pkgn))) 0x0102

/-! The timing profile (R323). -/

/-- PROF. -/
structure Prof where
  cat : Nat
  scope : Nat
  linklvl : Nat
  sparetol : Bool
  rmode : Nat
  modeRest : Nat
  explen64 : Nat
  nexp : Nat
  lead : Nat
  pitch : Nat
  period : Nat
  npkg : Nat
  mach : Nat
  seed : DWord
  rest : Nat
  deriving DecidableEq, Repr

def parseProf (bs : List Byte) : Prof :=
  let mode := field bs 3 1
  { cat := field bs 0 1, scope := field bs 1 1, linklvl := field bs 2 1, sparetol := mode % 2 = 1,
    rmode := mode / 2 % 4, modeRest := mode / 8, explen64 := field bs 4 2, nexp := field bs 6 4, lead := field bs 10 4,
    pitch := field bs 14 4, period := field bs 18 2, npkg := field bs 20 2, mach := field bs 22 2,
    seed := BitVec.ofNat 64 (field bs 24 8), rest := field bs 48 8 }

/-- The profile of an image. -/
def profOf (bs : List Byte) : Prof :=
  match (sections bs).find? fun x => x.typ = 1 with
  | some x => parseProf (x.body bs)
  | none => parseProf []

/-- Plate beats of an exposure. -/
def Prof.explen (p : Prof) : Nat := 64 * p.explen64

/-- NPKG is a count R323 allows. -/
def Prof.npkgOk (p : Prof) : Bool := 1 ≤ p.npkg && p.npkg ≤ 4096 && (p.scope ≠ 0 || p.npkg = 1)

/-- The exposure time bound of R59 in 1/65,536 ns at board and system scope, rounded up. -/
def Prof.bound (p : Prof) : Nat :=
  let e := if p.explen < 4096 then 4096 else p.explen
  (e * 65536 * 20 + 16) / 17 + (p.lead + 6) * 65536

/-- The encoding faults of PROF (R446). -/
def Prof.fieldBad (p : Prof) : Bool :=
  (p.cat ≠ 1 && p.cat ≠ 2) || 2 < p.scope || 2 < p.linklvl || p.modeRest ≠ 0 || 16777215 < p.lead ||
    16777215 < p.pitch || (p.scope = 0 && p.lead ≠ 0) || (p.scope ≠ 2 && p.pitch ≠ 0) || !p.npkgOk ||
    (p.mach ≠ 20 && p.mach ≠ 24) || p.rest ≠ 0

/-- Reason of PROF, with the catalogues a package accepts (R446). MACH and RMODE wait for BIND (R331). -/
def Prof.reason (p : Prof) (accepts : Nat → Bool) : Nat :=
  firstReason [refuse p.fieldBad 0x0302,
    refuse (p.explen64 < 16 || 1024 < p.explen64 || p.nexp = 0 || p.period = 0 || 4096 < p.period) 0x0801,
    refuse (p.scope ≠ 0 && p.lead < 100) 0x0803,
    refuse (p.scope = 2 && p.pitch * 65536 < p.bound) 0x0804,
    refuse (!accepts p.cat) 0x0901]

/-- R345: a mode that MACH or NPKG does not allow. -/
def Prof.modeBad (p : Prof) : Bool :=
  p.rmode = 3 || (p.rmode ≠ 0 && p.mach ≠ 20) || (p.rmode = 2 && 256 < p.npkg)

/-! Declarations (R325). -/

/-- An aperture need: APT, plate-logical cluster, least size. -/
structure Need where
  apt : Nat
  cl : Nat
  size : Nat
  rest : Nat
  deriving DecidableEq, Repr

/-- A DECL section: aperture needs and slice needs (cluster, mask byte). -/
structure Decl where
  needs : List Need
  slices : List (Nat × Nat)
  deriving DecidableEq, Repr

def declAt (bs : List Byte) (a b : Nat) : Decl :=
  { needs := (List.range a).map fun i =>
      { apt := field bs (8 * i) 1, cl := field bs (8 * i + 1) 1, size := field bs (8 * i + 2) 2,
        rest := field bs (8 * i + 4) 4 },
    slices := (List.range b).map fun i => (field bs (8 * a + 2 * i) 1, field bs (8 * a + 2 * i + 1) 1) }

def parseDecl (bs : List Byte) : Option Decl :=
  match Config.declCounts bs with
  | some (a, b) => if bs.length = 8 * a + 2 * b then some (declAt bs a b) else none
  | none => none

def Decl.reason (d : Decl) : Nat :=
  refuse ((d.needs.any fun x => 47 < x.cl || x.rest ≠ 0) || d.slices.any fun x => 47 < x.1 || 15 < x.2) 0x0302

/-- The declared slices: (plate-logical cluster, slice). -/
def Decl.declared (d : Decl) : List (Nat × Nat) :=
  ((d.slices.map fun x => ((List.range 4).filter fun n => bitSet x.2 n).map fun n => (x.1, n)).flatten).eraseDups

/-! The patch table (R332). -/

/-- A patch entry. -/
structure Ptch where
  reg : Nat
  cl : Nat
  kind : Nat
  arg : Nat
  pkg : Nat
  shift : Nat
  rest : Nat
  deriving DecidableEq, Repr

def ptchOf (w : Nat) : Ptch :=
  { reg := fld w 0 6, cl := fld w 6 6, kind := fld w 12 4, arg := fld w 16 8, pkg := fld w 24 12, shift := fld w 36 5,
    rest := fld w 41 23 }

def parsePtch (bs : List Byte) : Option (List Ptch) :=
  if bs.length % 8 = 0 then some ((List.range (bs.length / 8)).map fun i => ptchOf (field bs (8 * i) 8)) else none

/-- An entry's fields (R332); `parm` says whether a cluster has a PARM section over the whole range. -/
def Ptch.bad (e : Ptch) (npkg : Nat) (parm : Nat → Bool) : Bool :=
  e.kind < 1 || 4 < e.kind || 47 < e.cl || !parm e.cl || (e.kind = 2 && 62 < e.reg) ||
    (if e.kind = 2 || e.kind = 4 then npkg ≤ e.pkg else e.pkg ≠ 0) || (e.kind = 3 && 47 < e.arg) ||
    e.rest ≠ 0

/-! The ephemeris section (R326). -/

/-- A route record. -/
structure RouteRec where
  skind : Nat
  src : Nat
  spkg : Nat
  beat : Nat
  nfl : Nat
  dmask : Nat
  dlpkg : Nat
  dlmem : Nat
  deth : Nat
  lanes : Nat
  rest : Nat
  deriving DecidableEq, Repr

def recordAt (bs : List Byte) (o : Nat) : RouteRec :=
  { skind := field bs o 1, src := field bs (o + 1) 1, spkg := field bs (o + 2) 2, beat := field bs (o + 4) 2,
    nfl := field bs (o + 6) 2, dmask := field bs (o + 8) 6, dlpkg := field bs (o + 14) 2, dlmem := field bs (o + 16) 1,
    deth := field bs (o + 17) 1, lanes := field bs (o + 18) 1, rest := field bs (o + 19) 13 }

/-- The record's flits leave by a link. -/
def RouteRec.leaves (r : RouteRec) : Bool := 32768 ≤ r.dlpkg

/-- The package at the far end of the link the flits leave by. -/
def RouteRec.farPkg (r : RouteRec) : Nat := r.dlpkg % 4096

/-- The dies a record's flits go to: plate-logical clusters lie on the die of their number, a link on its own and the Ethernet
station on die 0. -/
def RouteRec.dies (r : RouteRec) : List Nat :=
  ((List.range 48).filter fun cl => bitSet r.dmask cl).map (· / 24) ++ (if r.leaves then [r.dlmem / 8] else []) ++
    if r.deth = 1 then [0] else []

/-- The record's flits cross the bridge. -/
def RouteRec.crosses (r : RouteRec) : Bool := r.dies.any fun d => d ≠ if r.skind = 0 then r.src / 24 else r.src / 8

/-- The record's fields (R326, R446). -/
def RouteRec.bad (r : RouteRec) (period npkg : Nat) : Bool :=
  1 < r.skind || (if r.skind = 0 then 47 < r.src || r.spkg ≠ 0 else 15 < r.src || npkg ≤ r.spkg) ||
    period ≤ r.beat || r.nfl < 1 || 4096 < r.nfl ||
    r.dlpkg / 4096 % 8 ≠ 0 || 15 < r.dlmem || (r.leaves && npkg ≤ r.farPkg) ||
    1 < r.deth || 7 < r.lanes || r.lanes % 4 = 3 || (!r.crosses && r.lanes % 4 ≠ 0) || (r.deth = 0 && 4 ≤ r.lanes) || r.rest ≠ 0

/-- A record whose expansion needs the board. -/
def RouteRec.usesLink (r : RouteRec) : Bool := r.skind = 1 || r.leaves

/-- A table of EPHM: its router and its entries. -/
structure EphTable where
  head : Nat
  entries : List Nat
  deriving DecidableEq, Repr

def EphTable.die (t : EphTable) : Nat := t.head % 2

def EphTable.phys (t : EphTable) : Nat := 6 * (t.head / 2 % 4) + t.head / 8 % 8

/-- An EPHM section: compiled placement, tables, route records. -/
structure Ephm where
  place : List Nat
  tables : List EphTable
  records : List RouteRec
  deriving DecidableEq, Repr

def ephmAt (bs : List Byte) (period t r : Nat) : Ephm :=
  let size := 4 + 5 * period
  { place := (List.range 48).map fun i => field bs (2 * i) 2,
    tables := (List.range t).map fun i =>
      let o := 96 + size * i
      { head := field bs o 4, entries := (List.range period).map fun j => field bs (o + 4 + 5 * j) 5 },
    records := (List.range r).map fun i => recordAt bs (96 + size * t + 32 * i) }

def parseEphm (period : Nat) (bs : List Byte) : Option Ephm :=
  match Config.ephmCounts period bs with
  | some (t, r) => if bs.length = 96 + (4 + 5 * period) * t + 32 * r then some (ephmAt bs period t r) else none
  | none => none

/-- The compiled place of a plate-logical cluster: die and physical position. -/
def Ephm.placeOf (e : Ephm) (cl : Nat) : Option (Nat × Nat) :=
  let w := e.place.getD cl 0xFFFF
  if w = 0xFFFF then none else some (cl / 24, 6 * (w % 4) + w / 4 % 8)

def Ephm.fieldBad (e : Ephm) (period npkg : Nat) : Bool :=
  (e.place.any fun w => w ≠ 0xFFFF && 24 ≤ w) ||
    (e.tables.any fun t => 64 ≤ t.head || 6 ≤ t.head / 8) || e.records.any fun r => r.bad period npkg

/-- Reason of an EPHM section; `lines` are the clusters with a LINE section in its range. -/
def Ephm.reason (e : Ephm) (period npkg : Nat) (lines : List Nat) : Nat :=
  firstReason [refuse (e.fieldBad period npkg) 0x0302,
    refuse (lines.any fun cl => (e.placeOf cl).isNone) 0x0403,
    refuse ((List.range 48).any fun cl => (e.placeOf cl).isSome && !lines.contains cl) 0x0302,
    refuse (!pairwise (fun (x y : EphTable) => x.head ≠ y.head) e.tables) 0x0403]

/-! A plate as it stands in its image. -/

/-- The section of a type (and cluster) that serves a package. -/
def sectFor (bs : List Byte) (typ cl q : Nat) : Option Sect :=
  (sections bs).find? fun x => x.typ = typ && (!x.perCluster || x.cl = cl) && x.serves q

/-- The bytes of that section; none of them where there is no section. -/
def bodyFor (bs : List Byte) (typ cl q : Nat) : List Byte :=
  match sectFor bs typ cl q with
  | some x => x.body bs
  | none => []

/-- The plate-logical clusters with a program on a package. -/
def clustersOf (bs : List Byte) (q : Nat) : List Nat :=
  (List.range 48).filter fun cl => (sectFor bs 3 cl q).isSome

/-- The lines of a cluster's program. -/
def linesOf (bs : List Byte) (q cl : Nat) : List Line :=
  match decodeProgram (bodyFor bs 3 cl q) with
  | .ok ls => ls
  | .error _ => []

/-- The parameter image of a cluster. -/
def parmOf (bs : List Byte) (q cl : Nat) : Tab Word :=
  let b := bodyFor bs 4 cl q
  (List.range 64).foldl (fun t i => Tab.set 0 t i (BitVec.ofNat 32 (field b (4 * i) 4))) []

def ptchFor (bs : List Byte) (q : Nat) : List Ptch := (parsePtch (bodyFor bs 5 0 q)).getD []

def declFor (bs : List Byte) (q : Nat) : Decl := (parseDecl (bodyFor bs 2 0 q)).getD { needs := [], slices := [] }

def ephmFor (bs : List Byte) (q : Nat) : Ephm :=
  (parseEphm (profOf bs).period (bodyFor bs 6 0 q)).getD { place := [], tables := [], records := [] }

/-- A flag declaration (R218). -/
structure FlagDecl where
  cl : Nat
  flag : Nat
  th : Nat
  opened : Bool
  sharer : Nat
  sharen : Bool
  deriving DecidableEq, Repr

/-- A barrier declaration (R229). -/
structure BarDecl where
  number : Nat
  scope : Nat
  flag : Nat
  members : List Nat
  deriving DecidableEq, Repr

def flagsFor (bs : List Byte) (q : Nat) : List FlagDecl :=
  match Config.flagSection (bodyFor bs 7 0 q) with
  | some (fs, _) => fs.map fun f => ⟨f.1, f.2.1, f.2.2.1, f.2.2.2.1, f.2.2.2.2.1, f.2.2.2.2.2⟩
  | none => []

def barriersFor (bs : List Byte) (q : Nat) : List BarDecl :=
  match Config.flagSection (bodyFor bs 7 0 q) with
  | some (_, xs) => xs.map fun b => ⟨b.1, b.2.1, b.2.2.1, b.2.2.2⟩
  | none => []

def xoutFor (bs : List Byte) : List Nat :=
  match (sections bs).find? fun x => x.typ = 8 with
  | some x => (Config.xoutSection (x.body bs)).getD []
  | none => []

/-! Section lengths (R330: 0x0103). -/

/-- A section's length does not match its contents; the lines of a LINE section are looked at later. -/
def Sect.lengthBad (x : Sect) (bs : List Byte) (period : Nat) : Bool :=
  let b := x.body bs
  match x.typ with
  | 1 => x.len ≠ 56
  | 2 => (parseDecl b).isNone
  | 4 => x.len ≠ 256
  | 5 => (parsePtch b).isNone
  | 6 => (parseEphm period b).isNone
  | 7 => (Config.flagSection b).isNone
  | 8 => (Config.xoutSection b).isNone
  | 9 => x.len ≠ 16616
  | _ => false

/-- Container reason of an image before its signatures are looked at (R321, R322, R329, R330): header, directory, and the length
of SIGN, without which there is nothing to check them in (notes/assumptions/112.md). -/
def containerReason (bs : List Byte) (len : Nat) : Nat :=
  let p := profOf bs
  let xs := sections bs
  let h := headerReason bs len
  if h ≠ 0 then h
  else
    let d := directoryReason bs len p.npkg p.npkgOk
    if d ≠ 0 then d
    else
      firstReason [refuse (p.scope ≤ 1 && !(ofType xs 8).isEmpty) 0x0102,
        refuse (xs.any fun x => x.typ = 9 && x.lengthBad bs p.period) 0x0103]

/-- Reason of the sections' lengths (R330: 0x0103), which the verifier looks at first (R329, step 3). -/
def lengthsReason (bs : List Byte) : Nat :=
  refuse ((sections bs).any fun x => x.lengthBad bs (profOf bs).period) 0x0103

/-! Signatures (R327, R328). -/

/-- The plate digest. -/
def plateDigest (bs : List Byte) : BitVec 384 :=
  match (sections bs).find? fun x => x.typ = 9 with
  | some x => Config.sha384 (bs.take x.off)
  | none => Config.sha384 bs

/-- Signature reason (R328), in its order. -/
def State.signatureReason (s : State) (tenant : Nat) (bs : List Byte) : Nat :=
  let b := bodyFor bs 9 0 0
  let signer := field b 0 8
  let digest := plateDigest bs
  match s.fw.signers.find? fun x => x.signer.toNat = signer with
  | none => 0x0203
  | some x =>
    firstReason [refuse (!Config.rsaVerify x.rsaKey digest ((b.drop 8).take 384)) 0x0201,
      refuse (!Config.slhVerify x.slhKey digest (b.drop 392)) 0x0202,
      refuse (!x.tenants.getLsbD tenant) 0x0203]

end Sys2Proof.Machine
end

