-- ==== Sys2Proof/Machine/Expand.lean ====
section
/-!
DEFINITION. The expansion of route records into ephemeris entries (R29, R196, R197, R326, R334).
-/

namespace Sys2Proof.Machine

/-- One switch of a route: a router, the input and output lane, and the beats after the flit is at its first router
input. -/
structure Hop where
  die : Nat
  phys : Nat
  inp : Nat
  out : Nat
  at_ : Nat
  deriving DecidableEq, Repr

/-- The input lane of a neighbour that an output lane leads to. -/
def opposite (lane : Nat) : Nat :=
  match lane with
  | 1 => 2 | 2 => 1 | 3 => 4 | 4 => 3 | n => n

/-- Follow a path of neighbouring routers: the hops, then the router, input lane and time at its end. -/
def follow (die : Nat) : Nat → Nat → Nat → List Nat → List Hop × Nat × Nat × Nat
  | p, inp, t, [] => ([], p, inp, t)
  | p, inp, t, q :: qs =>
    let lane := laneTo p q
    let r := follow die q (opposite lane) (t + laneCost lane) qs
    ({ die := die, phys := p, inp := inp, out := lane, at_ := t } :: r.1, r.2)

/-- A route along R29 from an input of a router to an output of another; `br` is the BR lane it crosses the bridge
on. -/
def routeHops (die p inp : Nat) (die' q final br : Nat) : List Hop :=
  let last := fun (d : Nat) (r : List Hop × Nat × Nat × Nat) =>
    r.1 ++ [{ die := d, phys := r.2.1, inp := r.2.2.1, out := final, at_ := r.2.2.2 : Hop }]
  if die = die' then last die (follow die p inp 0 (pathCol p q (q % 6)))
  else
    let bridge := 6 * (p / 6) + 5
    let r := follow die p inp 0 (pathCol p bridge 5)
    let x := bridgeHop die r br
    x ++ last die' (follow die' r.2.1 (7 + br) (r.2.2.2 + 8) (pathCol r.2.1 q 5))
where
  bridgeHop (die : Nat) (r : List Hop × Nat × Nat × Nat) (br : Nat) : List Hop :=
    r.1 ++ [{ die := die, phys := r.2.1, inp := r.2.2.1, out := 7 + br, at_ := r.2.2.2 }]

/-- Where plate-logical clusters and bundle members stand: a cluster's die and position, and the die link of (package,
die, member). -/
structure Ground where
  place : Nat → Option (Nat × Nat)
  link : Nat → Nat → Nat → Option Nat

/-- The first router input of a record. -/
def RouteRec.start (r : RouteRec) (g : Ground) : Option (Nat × Nat × Nat) :=
  if r.skind = 0 then (g.place r.src).map fun p => (p.1, p.2, 0)
  else (g.link r.spkg (r.src / 8) (r.src % 8)).map fun l => (r.src / 8, stationPhys l, 5 + l % 2)

/-- The outputs a record's flits leave the network by: router and lane. -/
def RouteRec.finish (r : RouteRec) (g : Ground) : List (Option (Nat × Nat × Nat)) :=
  (((List.range 48).filter fun cl => bitSet r.dmask cl).map fun cl => (g.place cl).map fun p => (p.1, p.2, 0)) ++
  (if r.leaves then
    [(g.link r.farPkg (r.dlmem / 8) (r.dlmem % 8)).map fun l => (r.dlmem / 8, stationPhys l, 5 + l % 2)] else []) ++
  (if r.deth = 1 then [some (0, 6, 5 + r.lanes / 4 % 2)] else [])

/-- The hops of a record; none where a cluster has no place or a member no link. -/
def RouteRec.hops (r : RouteRec) (g : Ground) : Option (List Hop) :=
  match r.start g with
  | none => none
  | some (d, p, inp) =>
    let ends := r.finish g
    if ends.any (·.isNone) then none
    else some (ends.filterMap fun e => e.map fun x => routeHops d p inp x.1 x.2.1 x.2.2 (r.lanes % 4)).flatten.eraseDups

/-- Key of an output lane of an entry. -/
def ephKey (die phys idx out : Nat) : Nat := (clKey die phys * 4096 + idx) * 10 + out

/-- Ephemeris entries by output lane: the input each names, 15 for none. -/
abbrev Entries := Tab Nat

/-- Put an input into an entry; none where another input already stands there. -/
def Entries.put (t : Entries) (key inp : Nat) : Option Entries :=
  let old := Tab.get 15 t key
  if old = 15 then some (Tab.set 15 t key inp) else if old = inp then some t else none

/-- The entries of a record over one period; none where they conflict with others. -/
def RouteRec.expand (r : RouteRec) (g : Ground) (period : Nat) (t : Entries) : Option Entries :=
  match r.hops g with
  | none => none
  | some hs =>
    (List.range r.nfl).foldl (fun t j => hs.foldl (fun t h =>
      match t with
      | some t => Entries.put t (ephKey h.die h.phys ((r.beat + j + h.at_) % period) h.out) h.inp
      | none => none) t) (some t)

/-- The expansion of every record. -/
def expandAll (rs : List RouteRec) (g : Ground) (period : Nat) : Option Entries :=
  rs.foldl (fun t r => match t with
    | some t => r.expand g period t
    | none => none) (some [])

/-- The tables of EPHM as entries by output lane. -/
def Ephm.entries (e : Ephm) : Entries :=
  e.tables.foldl (fun t x => (x.entries.zip (List.range x.entries.length)).foldl (fun t p =>
    (List.range 10).foldl (fun t k => Tab.set 15 t (ephKey x.die x.phys p.2 k) (p.1 / 16 ^ k % 16)) t) t) []

def ephRouter (key : Nat) : Nat := key / 40960
def ephIndex (key : Nat) : Nat := key / 10 % 4096
def ephOut (key : Nat) : Nat := key % 10

/-- An entry that names a lane absent at its router, a reserved code or its own lane (R197, R201). -/
def badEntry (key inp : Nat) : Bool :=
  let d := ephRouter key / 24
  let p := ephRouter key % 24
  !lanePresent d p (ephOut key) || !lanePresent d p inp || inp = ephOut key

/-- The routers a set of entries uses. -/
def Entries.routers (t : Entries) : List Nat := (t.map fun e => ephRouter e.1).eraseDups

/-- The 40-bit entry of a router at an index. -/
def Entries.word (t : Entries) (router idx : Nat) : BitVec 40 :=
  BitVec.ofNat 40 (packFields ((List.range 10).map fun k => (Tab.get 15 t ((router * 4096 + idx) * 10 + k), 4)))

/-- The output and input lanes a router's entries name (R199). -/
def Entries.lanes (t : Entries) (router : Nat) : Nat × Nat :=
  let here := t.filter fun e => ephRouter e.1 = router
  let mask := fun (xs : List Nat) => xs.eraseDups.foldl (fun (m : Nat) k => m + 2 ^ k) 0
  (mask (here.map fun e => ephOut e.1), mask (here.map (·.2)))

end Sys2Proof.Machine
end

