-- ==== Sys2Proof/Machine/Hazards.lean ====
section
/-!
DEFINITION. What the verifier follows of one plate-logical cluster, slot by slot: unit occupancy, latencies, state that is
dead at the boundary, ranges and ports (R75 to R85, R106, R127, R132, R134, R144 to R147, R159, R169, R179, R180, R200).
-/

namespace Sys2Proof.Machine

/-- A tile bank: its format, the first beat a stream may name it, and the first it may be loaded again. -/
structure VBank where
  loaded : Bool
  fmt : Nat
  ready : Nat
  free : Nat
  deriving DecidableEq, Repr

/-- An array: its banks, the first beat its feeder is free, the accumulator entries set, its setup and whether BIND patches
where that finds its table, the table entries written (first, end, first beat usable), the beat after the last TLOAD's issue,
and the last output write of a stream that uses the table. -/
structure VArr where
  b0 : VBank
  b1 : VBank
  feed : Nat
  acc : List (Nat × Nat)
  setup : Option CnvSetup
  blind : Bool
  table : List (Nat × Nat × Nat)
  tloaded : Nat
  tableUntil : Nat
  deriving DecidableEq, Repr

/-- A vector core: writes of its registers and row states (which, first beat readable), of its rotary table, and the first
beat its selection unit is free. -/
structure VUnit where
  regs : List (Nat × Nat)
  rows : List (Nat × Nat)
  rope : List (Nat × Nat)
  sel : Nat
  deriving DecidableEq, Repr

/-- A port of a slice in use on plate beats (R179): 0 data read, 1 write, 2 scale lane. -/
structure VUse where
  slice : Nat
  port : Nat
  first : Nat
  last : Nat
  step : Nat
  deriving DecidableEq, Repr

/-- A wait the verifier holds: flag, sense, issue beat, timeout (none where BIND patches it), class. -/
structure VWait where
  flag : Nat
  clear : Bool
  opened : Bool
  issued : Nat
  timeout : Option Nat
  deriving DecidableEq, Repr

/-- A plate-logical cluster in the dry run: its program, parameters (`unknown` are those BIND patches), place in the
program, units, flags, the board barriers' release flags it has arrived for in this exposure, the x registers written and the
values of those that are known, an open RECV (base, flits wanted, flits taken), flits that may still come on a later beat in
another standing-in placement (first byte, end, last such beat), reads yet to come of what a RECV brings (beat, first byte,
end), and ports. -/
structure Node where
  q : Nat
  cl : Nat
  lines : List Line
  ctx : Ctx
  unknown : List Nat
  count : Nat
  armedBy : Tab Nat
  wait : Option VWait
  flags : Tab Flag
  boards : List Nat
  a0 : VArr
  a1 : VArr
  v0 : VUnit
  v1 : VUnit
  xb : List (Nat × Nat)
  x : List (Nat × Nat)
  xv : List (Nat × Word)
  recv : Option (Nat × Nat × Nat)
  late : List (Nat × Nat × Nat)
  reads : List (Nat × Nat × Nat)
  uses : List VUse
  open_ : List (Nat × Nat)
  deriving DecidableEq, Repr

def VBank.init : VBank := { loaded := false, fmt := 0, ready := 0, free := 0 }

def VArr.init : VArr :=
  { b0 := VBank.init, b1 := VBank.init, feed := 0, acc := [], setup := none, blind := false, table := [], tloaded := 0,
    tableUntil := 0 }

def VUnit.init : VUnit := { regs := [], rows := [], rope := [], sel := 0 }

def Node.arr (n : Node) (a : Nat) : VArr := if a = 0 then n.a0 else n.a1

def Node.setArr (n : Node) (a : Nat) (x : VArr) : Node := if a = 0 then { n with a0 := x } else { n with a1 := x }

def VArr.bank (x : VArr) (b : Nat) : VBank := if b = 0 then x.b0 else x.b1

def VArr.setBank (x : VArr) (b : Nat) (y : VBank) : VArr := if b = 0 then { x with b0 := y } else { x with b1 := y }

def Node.core (n : Node) (v : Nat) : VUnit := if v = 0 then n.v0 else n.v1

def Node.setCore (n : Node) (v : Nat) (x : VUnit) : Node := if v = 0 then { n with v0 := x } else { n with v1 := x }

/-- An array at an exposure boundary: only the beats before which a bank may not be loaded again go on (R76). -/
def VArr.boundary (x : VArr) : VArr :=
  { VArr.init with b0 := { VBank.init with free := x.b0.free }, b1 := { VBank.init with free := x.b1.free } }

/-- What is dead at an exposure boundary (R85, R108, R147, R169); occupancy of the feeder and units ends with it. -/
def Node.boundary (n : Node) : Node :=
  { n with a0 := n.a0.boundary, a1 := n.a1.boundary, v0 := VUnit.init, v1 := VUnit.init, xb := [], x := [], xv := [],
           boards := [] }

/-- What a slot does beyond its cluster. -/
inductive Effect where
  | flag (op : FlagOp) (f : SyncSlot)
  | arrive (f : SyncSlot)
  | send (n : Nat)
  deriving DecidableEq, Repr

/-- What the verifier knows of the run: catalogue, exposures, the flag count, and, at BIND for the package's own
clusters, the tenant's apertures and where each cluster stands (die, device-logical cluster). -/
structure Frame where
  cat : Nat
  explen : Nat
  nexp : Nat
  flagCount : Nat
  apertures : List Aperture
  stands : Option (List (Nat × Nat × Nat))
  bars : Nat → List BarDecl
  boardScope : Bool

/-- The last beat of a beat's exposure. -/
def Frame.lastBeat (e : Frame) (t : Nat) : Nat := (t / e.explen + 1) * e.explen - 1

/-- The result of a slot: the node after it, a reason (0 for none), and what it does elsewhere. -/
structure Taken where
  node : Node
  why : Nat
  out : List Effect

def Node.pass (n : Node) : Taken := { node := n, why := 0, out := [] }

def Node.stop (n : Node) (why : Nat) : Taken := { node := n, why := why, out := [] }

/-- Reads of state written before: dead when never written (0x0405), early when a write is not yet readable (0x0401). -/
def readReason (writes : List (Nat × Nat)) (t : Nat) (rs : List Nat) : Nat :=
  firstReason [refuse (rs.any fun r => !writes.any fun w => w.1 = r) 0x0405,
    refuse (rs.any fun r => writes.any fun w => w.1 = r && t < w.2) 0x0401]

/-- Two writes of one register on one beat. -/
def writeReason (writes : List (Nat × Nat)) (ready : Nat) (rs : List Nat) : Nat :=
  refuse (rs.any fun r => writes.contains (r, ready)) 0x0401

def addWrites (writes : List (Nat × Nat)) (ready : Nat) (rs : List Nat) : List (Nat × Nat) :=
  rs.map (fun r => (r, ready)) ++ writes

/-! Latencies. -/

/-- The vector registers an operation reads (R126). -/
def vecReads (op : Nat) (f : VecSlot) : List Nat :=
  let two := 1 ≤ op && op ≤ 6
  if op = 0x10 then []
  else [f.va] ++ (if two && f.sb = 0 then [f.vb] else []) ++ if op = 4 then [f.vc] else []

def vecWrites (op : Nat) (f : VecSlot) : List Nat :=
  if op = 0x10 then [] else if op = 0x11 then [f.vd, f.vb] else [f.vd]

/-- An x register whose value the program alone fixes. -/
def Node.known (n : Node) (r : Nat) : Option Word := if r = 0 then some 0 else (n.xv.find? fun v => v.1 = r).map (·.2)

/-- L of R160: a load's by where its address lies, and that of the data window where the program does not fix the address
(notes/assumptions/111.md). -/
def Node.rvLatency (n : Node) (cat : Nat) : RvOp → Nat
  | .alu op _ _ _ => aluLatency cat op
  | .load _ _ _ rs1 imm =>
    match n.known rs1 with
    | some v => if (v + imm).toNat < 0x10000 then loadLatency cat (some (.data 0)) else loadLatency cat none
    | none => loadLatency cat (some (.data 0))
  | _ => 1

/-- The value of a result that the program alone fixes. -/
def Node.result (n : Node) : RvOp → Option Word
  | .alu op _ rs1 b =>
    let y := match b with
      | .reg r => n.known r
      | .imm v => some v
    match n.known rs1, y with
    | some x, some y => some (aluOp op x y)
    | _, _ => none
  | .lui _ v => some v
  | _ => none

/-! Matrix slots. -/

/-- An integer format (R70). -/
def intFmt (fmt : Nat) : Bool := fmt = 8 || fmt = 9

def Node.load (n : Node) (t : Nat) (transp : Bool) (f : LoadSlot) : Taken :=
  let x := n.arr f.arr
  let b := x.bank f.tb
  if t < b.free then n.stop 0x0401
  else
    let b := { b with loaded := true, fmt := f.sfmt, ready := t + loadBeats f.sfmt transp }
    (n.setArr f.arr (x.setBank f.tb b)).pass

/-- Every index of a run lies in a range. -/
def covered (ranges : List (Nat × Nat)) (lo n : Nat) : Bool :=
  (List.range n).all fun j => ranges.any fun r => r.1 ≤ lo + j && lo + j < r.2

def Node.stream (n : Node) (t cat : Nat) (f : StreamSlot) : Taken :=
  let x := n.arr f.arr
  let b := x.bank f.tb
  let len := f.nm1 + 1
  let q := feederBeats (rateOf b.fmt f.wfmt) len
  let u := x.setup.getD CnvSetup.init
  let chm := streamOuts f && u.chm
  let ready := (x.table.filter fun r => r.2.2 ≤ t).map fun r => (r.1, r.2.1)
  let why := firstReason [refuse (!b.loaded) 0x0405, refuse (intFmt b.fmt ≠ intFmt f.wfmt) 0x0304,
    refuse (t < b.ready || t < x.feed) 0x0401,
    refuse (2 ≤ f.acc && !covered x.acc f.accbase len) 0x0405,
    refuse (streamOuts f && x.setup.isNone) 0x0405,
    refuse (chm && x.tloaded = t + 1) 0x0401,
    refuse (chm && !x.blind && !covered ready u.scale.toNat len) 0x0405]
  if why ≠ 0 then n.stop why
  else
    let until_ := t + 6 + streamLatency cat + q - 1
    let x := x.setBank f.tb { b with free := t + q + 31 }
    let x := { x with
      feed := t + q
      acc := if f.acc = 1 then (f.accbase, f.accbase + len) :: x.acc else x.acc
      tableUntil := if chm && x.tableUntil < until_ then until_ else x.tableUntil }
    (n.setArr f.arr x).pass

def Node.tload (n : Node) (t : Nat) (f : TloadSlot) : Taken :=
  let x := n.arr f.arr
  if t < x.tableUntil then n.stop 0x0401
  else
    let k := f.km1 + 1
    (n.setArr f.arr { x with table := (f.tbase, f.tbase + k, t + tloadBeats k) :: x.table, tloaded := t + 1 }).pass

/-- A SET latches its registers' values; where BIND patches the one that finds the table, the table's use is checked there. -/
def Node.cnvSet (n : Node) (f : SetSlot) : Taken :=
  (n.setArr f.arr { n.arr f.arr with setup := some (setupOf n.ctx f), blind := n.unknown.contains f.psc }).pass

/-! Vector and selection slots. -/

/-- A ROPE uses the newest table that is usable; none loaded earlier is dead state, none usable yet is early (R134). -/
def ropeReason (rope : List (Nat × Nat)) (t op : Nat) : Nat :=
  if op ≠ 0x18 then 0
  else firstReason [refuse rope.isEmpty 0x0405, refuse (!rope.any fun w => w.2 ≤ t) 0x0401]

def Node.vec (n : Node) (t cat op : Nat) (f : VecSlot) : Taken :=
  let v := n.core f.core
  let ready := t + vecLatency cat op
  let rows := if op = 0x11 || op = 0x12 then [f.row] else []
  let why := firstReason [readReason v.regs t (vecReads op f), readReason v.rows t rows,
    ropeReason v.rope t op, writeReason v.regs ready (vecWrites op f)]
  if why ≠ 0 then n.stop why
  else
    let others := v.rows.filter fun w => w.1 ≠ f.row
    let inFlight := (v.rows.filter fun w => w.1 = f.row).foldl (fun m w => max m w.2) 0
    let v := { v with
      regs := addWrites v.regs ready (vecWrites op f)
      rows := if op = 0x10 then (f.row, max (t + 1) inFlight) :: others
        else if op = 0x11 then (f.row, t + if cat = 2 then 5 else 6) :: others else v.rows }
    (n.setCore f.core v).pass

def Node.vmem (n : Node) (t cat op : Nat) (f : VmemSlot) : Taken :=
  let v := n.core f.core
  let ready := t + vecLatency cat op
  match op with
  | 0x20 =>
    let why := writeReason v.regs ready [f.vr]
    if why ≠ 0 then n.stop why else (n.setCore f.core { v with regs := addWrites v.regs ready [f.vr] }).pass
  | 0x21 =>
    let why := readReason v.regs t [f.vr]
    if why ≠ 0 then n.stop why else n.pass
  | _ => (n.setCore f.core { v with rope := (0, ready) :: v.rope }).pass

/-- A selection slot takes its unit for some beats. -/
def Node.select (n : Node) (t core beats : Nat) : Taken :=
  let v := n.core core
  if t < v.sel then n.stop 0x0401 else (n.setCore core { v with sel := t + beats }).pass

/-- A selection slot that fills a bank of the index buffer, readable from a beat on. -/
def Node.fillBank (n : Node) (t core beats bank ready : Nat) : Taken :=
  let why := writeReason n.xb ready [bank]
  if why ≠ 0 then n.stop why
  else
    let r := n.select t core beats
    { r with node := { r.node with xb := addWrites r.node.xb ready [bank] } }

def Node.topk (n : Node) (t cat : Nat) (f : TopkSlot) : Taken :=
  n.fillBank t f.vc (topkBeats f) f.xb (t + topkBeats f + if cat = 2 then 16 else 18)

def Node.ixld (n : Node) (t cat : Nat) (f : IxldSlot) : Taken :=
  n.fillBank t f.vc 1 f.xb (t + if cat = 2 then 7 else 8)

/-- GATHER: the bank it names is not in flight (R146; notes/assumptions/38.md). -/
def Node.gather (n : Node) (t : Nat) (f : GatherSlot) : Taken :=
  let why := readReason n.xb t [f.xb]
  if why ≠ 0 then n.stop why else n.select t f.vc ((f.gm1 + 1) * (f.nbm1 + 1))

/-- SCATTER (R144): FCAP within its range, T a multiple of KR, at most 16,384 slots. -/
def Node.scatter (n : Node) (t cat : Nat) (f : ScatterSlot) : Taken :=
  if n.unknown.contains f.pf then n.pass
  else
    let (fcap, nb, kr) := scatterShape n.ctx f
    let slots := scatterSlots n.ctx f
    let phase := (f.tm1 + 128) / 128 + if cat = 2 then 12 else 14
    let why := firstReason [refuse (4096 < fcap) 0x0302, refuse ((f.tm1 + 1) % kr ≠ 0 || 16384 < slots) 0x0304]
    if why ≠ 0 then n.stop why else n.select t f.vc (phase + slots * nb)

/-! Scalar, parameter, bulk and sync slots. -/

def Node.scalar (n : Node) (t cat : Nat) (a b : Word) : Taken :=
  let ops := [decodePos a, decodePos b].filterMap id
  let ws := ops.filterMap fun o => o.rd.map fun r => (r, t + n.rvLatency cat o)
  let why := firstReason [readReason n.x t ((ops.map RvOp.srcs).flatten), refuse (ws.any n.x.contains) 0x0401]
  if why ≠ 0 then n.stop why
  else
    let vs := ops.filterMap fun o => match o.rd, n.result o with
      | some r, some v => some (r, v)
      | _, _ => none
    { n with x := ws ++ n.x, xv := vs ++ n.xv.filter fun (v : Nat × Word) => !ws.any fun (w : Nat × Nat) => w.1 = v.1 }.pass

/-- A parameter update; a register whose value BIND patches stays unknown until it is set from known values. -/
def Node.param (n : Node) (op : Nat) (f : ParamSlot) : Taken :=
  let k := n.ctx
  let imm := BitVec.ofNat 32 f.imm
  let run := (List.range (f.nm1 + 1)).map (f.pd + ·)
  let vals : List (Nat × Word) := match op with
    | 1 => run.map fun r => (r, imm)
    | 2 => run.map fun r => (r, k.param r + imm)
    | _ => [(f.pd, k.param f.pa + imm)]
  let hidden := match op with
    | 1 => []
    | 2 => run.filter n.unknown.contains
    | _ => if n.unknown.contains f.pa then [f.pd] else []
  let params := vals.foldl (fun t v => Tab.set 0 t v.1 v.2) k.params
  let written := vals.map fun v => v.1
  { n with ctx := { k with params := params },
           unknown := hidden ++ n.unknown.filter fun r => !written.contains r }.pass

/-- A bulk slot; `flits` says whether the package's flits are followed. -/
def Node.bulk (n : Node) (flits : Bool) (op : Nat) (f : BulkSlot) : Taken :=
  if op = 1 then { n.pass with out := [.send (f.nm1 + 1)] }
  else if !flits then n.pass
  else if n.recv.isSome then n.stop 0x0401
  else { n with recv := some (n.ctx.offset f.pa, f.nm1 + 1, 0) }.pass

/-- A sync slot other than a wait. -/
def Node.sync (n : Node) (e : Frame) (op : Nat) (f : SyncSlot) : Taken :=
  match op with
  | 6 =>
    match (e.bars n.q).find? fun b => b.number = f.flag && b.members.contains n.cl && b.scope = f.scope with
    | none => n.stop 0x0504
    | some b =>
      { node := if b.scope = 2 then { n with boards := b.flag :: n.boards } else n, why := 0, out := [.arrive f] }
  | 1 => { n.pass with out := [.flag .set f] }
  | 2 => { n.pass with out := [.flag .clr f] }
  | 5 => { n.pass with out := [.flag .cnt f] }
  | _ => n.pass

/-! Ranges and ports. -/

/-- The plan of a slot at the node's present state. -/
def Slot.plan (s : Slot) (n : Node) (cat : Nat) : Option Plan :=
  let k := n.ctx
  match s with
  | .stream f => some (streamPlan k f ((n.arr f.arr).bank f.tb).fmt ((n.arr f.arr).setup.getD CnvSetup.init) cat)
  | .load op f => some (loadPlan k (op = 2) f)
  | .tload f => some (tloadPlan k f)
  | .vmem op f => some (vmemPlan k op f cat)
  | .store op f => some (storePlan k op f)
  | .bulk op f => some (bulkPlan k op f)
  | .topk f => some (topkPlan k f cat)
  | .ixld f => some (ixldPlan k f cat)
  | .gather f => some (gatherPlan k f cat)
  | .scatter f => some (scatterPlan k f cat)
  | .scalar _ _ => none
  | .cnvSet _ => none
  | .vec _ _ => none
  | .sync _ _ => none
  | .param _ _ => none

/-- The last beat of a SCATTER is known once its shape is. -/
def Slot.shapeKnown (s : Slot) (n : Node) : Bool :=
  match s with
  | .scatter f => !n.unknown.contains f.pf
  | _ => true

/-- A bound range: inside the cluster's slices, one aperture and one slice, on its alignment (R68, R84, R123, R180). -/
def spanReason (die logical : Nat) (aps : List Aperture) (x : Span) : Nat :=
  let t := { Tenant.init with apertures := aps }
  firstReason [refuse (x.off < 0 || 2 ^ 26 < x.off + x.len) 0x0602,
    refuse (!t.holds die logical x.off.toNat x.len || !inOneSlice x.off.toNat x.len) 0x0601,
    refuse (x.align ≠ 0 && x.off.toNat % x.align ≠ 0) 0x0402]

/-- The checks of a plan on the plate as bound. -/
def Plan.boundReason (p : Plan) (k : Ctx) (die logical : Nat) (aps : List Aperture) : Nat :=
  let data := match p.data with
    | some (_, off, len) => [refuse (!k.dataOk off len) 0x0601, refuse (off % 4 ≠ 0) 0x0402]
    | none => []
  firstReason (data ++ p.spans.map (spanReason die logical aps) ++ [firstReason (p.conds.map fun x => refuse (!x.ok) x.why)])

/-- The ports a plan uses on plate beats. -/
def Plan.ports (p : Plan) (t : Nat) : List VUse :=
  (p.uses.filter fun u => u.n ≠ 0).map fun u =>
    { slice := sliceOf u.off, port := u.port, first := t + u.from_, last := t + u.from_ + (u.n - 1) * u.step, step := u.step }

/-- Where a node's cluster stands, when the checks of BIND apply to it. -/
def Frame.standsAt (e : Frame) (cl : Nat) : Option (Nat × Nat) :=
  match e.stands with
  | some xs => (xs.find? fun (x : Nat × Nat × Nat) => x.1 = cl).map fun (x : Nat × Nat × Nat) => x.2
  | none => none

/-- The reads of a plan that meet what a RECV is to bring, or may bring later in another placement: beat, first byte, end. A
run is read in even parts. -/
def Plan.early (p : Plan) (n : Node) (t : Nat) : List (Nat × Nat × Nat) :=
  let meets := fun (lo hi : Nat) =>
    (match n.recv with
      | some (base, k, got) => decide (lo < base + 256 * k ∧ base + 256 * got < hi)
      | none => false) || n.late.any fun x => lo < x.2.1 && x.1 < hi
  ((p.uses.filter fun u => u.port ≠ 1).map fun u =>
    let len := match p.spans.find? fun x => x.off = u.off with
      | some x => x.len
      | none => 0
    (List.range u.n).filterMap fun d =>
      let lo := u.off + len * d / u.n
      let hi := u.off + (len * (d + 1) + u.n - 1) / u.n
      if meets lo hi then some (t + u.from_ + d * u.step, lo, hi) else none).flatten

/-- What a slot that has no plan writes last, in beats from its issue (R126, R132, R160, R163). -/
def Slot.lastWrite (s : Slot) (n : Node) (cat : Nat) : Nat :=
  match s with
  | .scalar a b => ([decodePos a, decodePos b].filterMap id).foldl (fun m o =>
      max m (match o with
        | .store _ _ rs1 imm => (match n.known rs1 with
          | some v => if 0x10000 ≤ (v + imm).toNat then 1 else 0
          | none => 0)
        | _ => n.rvLatency cat o - 1)) 0
  | .vec op _ => vecLatency cat op - 1
  | .vmem op _ => if op = 0x21 then 0 else vecLatency cat op - 1
  | _ => 0

/-- A slot's last read or write inside its exposure, and, as bound, its ranges, ports and reads of what a RECV brings. -/
def Slot.planned (s : Slot) (e : Frame) (own : Bool) (t : Nat) (n : Node) : Node × Nat :=
  let past := refuse (e.lastBeat t < t + s.lastWrite n e.cat) 0x0802
  match s.plan n e.cat with
  | none => (n, past)
  | some p =>
    let late := firstReason [refuse (s.shapeKnown n && e.lastBeat t < t + p.ends) 0x0802, past]
    match (if own then e.standsAt n.cl else none) with
    | none => (n, late)
    | some (die, logical) =>
      ({ n with uses := p.ports t ++ n.uses, reads := p.early n t ++ n.reads },
       firstReason [p.boundReason n.ctx die logical e.apertures, late])

/-- A GATHER's count of entries is fixed by LOAD_PLATE where no patch reaches it. -/
def Slot.countReason (s : Slot) (n : Node) : Nat :=
  match s with
  | .gather f => refuse (!n.unknown.contains f.pn && (n.ctx.param f.pn).toNat % 65536 = 0) 0x0302
  | _ => 0

/-- One slot issues on beat t. -/
def Slot.take (s : Slot) (e : Frame) (own flits : Bool) (t : Nat) (n : Node) : Taken :=
  let r := match s with
    | .scalar a b => n.scalar t e.cat a b
    | .stream f => n.stream t e.cat f
    | .load op f => n.load t (op = 2) f
    | .cnvSet f => n.cnvSet f
    | .tload f => n.tload t f
    | .vec op f => n.vec t e.cat op f
    | .vmem op f => n.vmem t e.cat op f
    | .store _ _ => n.pass
    | .bulk op f => n.bulk flits op f
    | .sync op f => n.sync e op f
    | .topk f => n.topk t e.cat f
    | .ixld f => n.ixld t e.cat f
    | .gather f => n.gather t f
    | .scatter f => n.scatter t e.cat f
    | .param op f => n.param op f
  if r.why ≠ 0 then r
  else if s.countReason n ≠ 0 then n.stop (s.countReason n)
  else
    let (m, why) := s.planned e own t n
    if why ≠ 0 then n.stop why else { r with node := { r.node with uses := m.uses, reads := m.reads } }

/-- The order in which the slots of one line are taken: setups and tables, loads, the rest (R80). -/
def issueOrder (xs : List Slot) : List Slot :=
  (xs.filter fun s => s.kind = 9) ++ (xs.filter fun s => s.kind = 5) ++ xs.filter fun s => s.kind ≠ 9 && s.kind ≠ 5

/-- Every slot of a line but its wait. -/
def takeAll (e : Frame) (own flits : Bool) (t : Nat) (n : Node) (xs : List Slot) : Taken :=
  (issueOrder (xs.filter fun s => !s.waits)).foldl (fun r s =>
    if r.why ≠ 0 then r
    else
      let y := s.take e own flits t r.node
      { y with out := r.out ++ y.out }) n.pass

/-- Two uses of one port meet on a beat (R180). -/
def portClash (uses : List VUse) (t : Nat) : Bool :=
  let now := uses.filter fun u => u.first ≤ t && t ≤ u.last && (t - u.first) % (if u.step = 0 then 1 else u.step) = 0
  !pairwise (fun (x y : VUse) => !(x.slice = y.slice && x.port = y.port)) now

end Sys2Proof.Machine
end

