-- ==== Sys2Proof/Machine/Verify.lean ====
section
/-!
DEFINITION. The verifier (R330, R331): the dry run of a plate-logical board beat by beat, with its wait/set graph (R225 to
R231), its scheduled flits (R200, R201) and its budgets (R237, R250, R292).
-/

namespace Sys2Proof.Machine

/-! One beat of one program (R151 to R158, R173). -/

/-- A beat's result for a node; `blind` when an open wait's timeout is known only at BIND. -/
structure Beat where
  taken : Taken
  blind : Bool

def Taken.beat (r : Taken) : Beat := { taken := r, blind := false }

/-- One beat of the line at hand is over. -/
def Node.tick (n : Node) (l : Line) : Node :=
  if n.count < l.rep then { n with count := n.count + 1 }
  else { n with count := 0, ctx := { n.ctx with word := n.ctx.word + l.words } }

/-- A program ends: only in the last exposure (R158). -/
def Node.finish (n : Node) (e : Frame) (t : Nat) : Taken :=
  if t / e.explen + 1 = e.nexp then { n with ctx := { n.ctx with ended := true } }.pass else n.stop 0x0305

/-- A LOOP (R157): its target is a line, and its counter is not armed by another. -/
def Node.loop (n : Node) (e : Frame) (t : Nat) (w : LoopWord) : Taken :=
  let here := n.ctx.word + 1
  let by_ := Tab.get 0 n.armedBy w.lc
  if by_ ≠ 0 && by_ ≠ here then n.stop 0x0301
  else
    let k := n.ctx.loop w t
    let n := { n with ctx := k, armedBy := Tab.set 0 n.armedBy w.lc (if k.isArmed w.lc then here else 0) }
    if k.ended then n.finish e t else n.pass

/-- The wait of a slot as it issues. -/
def Node.newWait (n : Node) (t op : Nat) (f : SyncSlot) : VWait :=
  { flag := f.flag, clear := op = 4, opened := (Tab.get Flag.init n.flags f.flag).opened, issued := t,
    timeout := if n.unknown.contains f.pt then none else some (bitsOf (n.ctx.param f.pt) 0 24) }

/-- A wait's own faults: a flag beyond the partition, no timeout, a board release in the exposure of its ARRIVE. -/
def Node.waitReason (n : Node) (e : Frame) (w : VWait) : Nat :=
  firstReason [refuse (e.flagCount ≤ w.flag) 0x0504, refuse (w.timeout = some 0) 0x0502,
    refuse (n.boards.contains w.flag) 0x0503]

/-- A closed wait that completes on beat t after a limit (R227). -/
def VWait.lateReason (w : VWait) (e : Frame) (t : Nat) : Nat :=
  let last := e.lastBeat w.issued
  match w.timeout with
  | some k => if w.issued + k ≤ last then refuse (w.issued + k ≤ t) 0x0502 else refuse (last < t) 0x0503
  | none => refuse (last < t) 0x0503

/-- The condition of a wait at the end of the previous beat. -/
def Node.holds (n : Node) (w : VWait) : Bool :=
  let fl := Tab.get Flag.init n.flags w.flag
  if w.clear then !fl.s else fl.s

/-- A line with a wait (R173, R223, R224). -/
def Node.waitLine (n : Node) (e : Frame) (own flits : Bool) (t op : Nat) (f : SyncSlot) (l : Line) (xs : List Slot) : Beat :=
  let isNew := n.wait.isNone
  let w := n.wait.getD (n.newWait t op f)
  let why := if isNew then n.waitReason e w else 0
  let go := fun (n : Node) =>
    let r := takeAll e own flits t { n with wait := none } xs
    ({ r with node := r.node.tick l } : Taken).beat
  if why ≠ 0 then (n.stop why).beat
  else if w.opened then
    match w.timeout with
    | none => { taken := n.pass, blind := true }
    | some k =>
      let n := if isNew then { n with open_ := ((n.ctx.word, k) :: n.open_).eraseDups } else n
      if t = w.issued + k then go n else { n with wait := some w }.pass.beat
  else if n.holds w then
    let late := w.lateReason e t
    if late ≠ 0 then (n.stop late).beat else go n
  else { n with wait := some w }.pass.beat

/-- One beat of a node's program. -/
def Node.beat (n : Node) (e : Frame) (own flits : Bool) (t : Nat) : Beat :=
  if n.ctx.ended then n.pass.beat
  else
    match n.lines.find? fun l => l.word = n.ctx.word with
    | none => (n.stop 0x0305).beat
    | some l =>
      match l.body with
      | .idle => (n.tick l).pass.beat
      | .control (.loop w) => (n.loop e t w).beat
      | .control .end_ => (n.finish e t).beat
      | .slots xs =>
        match xs.find? Slot.waits with
        | some (.sync op f) => n.waitLine e own flits t op f l xs
        | _ =>
          let r := takeAll e own flits t n xs
          ({ r with node := r.node.tick l } : Taken).beat

/-! The board. -/

/-- A scheduled flit in the dry run: package, router, input lane, beat, the exposure it was sent in, and where it entered the
package's network: the cluster, if one sent it, and the router. -/
structure VFlit where
  q : Nat
  die : Nat
  phys : Nat
  lane : Nat
  beat : Nat
  exp : Nat
  src : Option Nat
  org : Nat × Nat
  deriving DecidableEq, Repr

/-- A flag operation on its way: target, and the beat at whose end it is applied. -/
structure VMsg where
  q : Nat
  cl : Nat
  flag : Nat
  op : FlagOp
  due : Nat
  deriving DecidableEq, Repr

/-- A barrier episode: who has arrived, and, once all have, the beat of its release, which ends it (R229). -/
structure VBar where
  q : Nat
  decl : BarDecl
  arrived : List Nat
  complete : Bool
  until_ : Nat
  deriving DecidableEq, Repr

/-- The dry run. `links` and `crossed` are the flits and flag entries handed to a link or station so far: who, which,
when. -/
structure Sim where
  nodes : List Node
  flits : List VFlit
  msgs : List VMsg
  bars : List VBar
  links : List ((Nat × Nat) × Nat)
  crossed : List ((Nat × Nat × Nat) × Nat)
  blind : Bool
  why : Nat

/-- What the dry run is held against: `ends` leads from a package's link to the package, die, router and input lane at its far
end, and `sets` gives the positions a cluster may take (R34). -/
structure Check where
  frame : Frame
  scope : Nat
  npkg : Nat
  period : Nat
  place : Nat → Nat → Option (Nat × Nat)
  tabs : Nat → Entries
  ends : Nat → Nat → Option (Nat × Nat × Nat × Nat)
  sets : Nat → Nat → List (Nat × Nat)
  follows : Nat → Bool
  own : Option Nat
  noRecv : Nat
  level : Nat

def Sim.stop (m : Sim) (why : Nat) : Sim := if m.why ≠ 0 then m else { m with why := why }

/-- Apply a change to a node. -/
def Sim.modNode (m : Sim) (q cl : Nat) (f : Node → Node) : Sim :=
  { m with nodes := m.nodes.map fun n => if n.q = q && n.cl = cl then f n else n }

def Sim.node (m : Sim) (q cl : Nat) : Option Node := m.nodes.find? fun n => n.q = q && n.cl = cl

/-- More than `k` of the uses of a key fall in the `span` beats that end with beat t. -/
def tooMany {α : Type} [DecidableEq α] (uses : List (α × Nat)) (key : α) (t span k : Nat) : Bool :=
  k < uses.countP fun u => u.1 = key && t < u.2 + span

/-- A flag operation (R173, R218, R221, R237, R250). -/
def Sim.flag (m : Sim) (c : Check) (t : Nat) (n : Node) (op : FlagOp) (f : SyncSlot) : Sim :=
  let q := if c.scope = 0 || f.remote = 0 then n.q else 16 * (n.q / 16) + f.tpkg
  let cl := if f.remote = 0 then n.cl else 24 * f.tdie + f.tcl
  let due := t + if f.remote = 0 then 1 else if q ≠ n.q then 128 else if f.tdie = n.cl / 24 then 24 else 36
  if (m.node q cl).isNone || c.frame.flagCount ≤ f.flag then m.stop 0x0504
  else if c.frame.lastBeat t < due then m.stop 0x0802
  else
    let m := { m with msgs := { q := q, cl := cl, flag := f.flag, op := op, due := due } :: m.msgs }
    if q = n.q then m
    else
      let key := (n.q, n.cl / 24, q)
      let uses := (key, t) :: m.crossed
      if tooMany uses key t 40 2 then { m with crossed := uses }.stop 0x0404 else { m with crossed := uses }

/-- The release beats of a barrier (R230). -/
def Sim.release (m : Sim) (x : VBar) (due : Nat) : Sim :=
  { m with msgs := (x.decl.members.map fun cl => { q := x.q, cl := cl, flag := x.decl.flag, op := .set, due := due : VMsg }) ++
             m.msgs,
           bars := m.bars.map fun y => if y.q = x.q && y.decl.number = x.decl.number then
             (if x.decl.scope = 2 then { y with arrived := [], complete := false } else { y with until_ := due }) else y }

/-- An arrival (R229, R230): the first after the release beat begins the next episode. -/
def Sim.arrive (m : Sim) (c : Check) (t : Nat) (n : Node) (f : SyncSlot) : Sim :=
  match m.bars.find? fun x => x.q = n.q && x.decl.number = f.flag with
  | none => m.stop 0x0504
  | some x =>
    let x := if x.complete && decide (x.decl.scope < 2 && x.until_ < t) then { x with arrived := [], complete := false } else x
    if x.arrived.contains n.cl then m.stop 0x0504
    else
      let arrived := n.cl :: x.arrived
      let full := x.decl.members.all arrived.contains
      let x := { x with arrived := arrived, complete := full }
      let m := { m with bars := m.bars.map fun y => if y.q = x.q && y.decl.number = x.decl.number then x else y }
      if !full || x.decl.scope = 2 then m
      else
        let due := t + barrierDelay x.decl.scope
        if c.frame.lastBeat t < due then m.stop 0x0802 else m.release x due

/-- What a slot does elsewhere. -/
def Sim.effect (m : Sim) (c : Check) (t : Nat) (n : Node) : Effect → Sim
  | .flag op f => m.flag c t n op f
  | .arrive f => m.arrive c t n f
  | .send k =>
    match c.place n.q n.cl with
    | some (d, p) =>
      if c.follows n.q then
        { m with flits := ((List.range k).map fun j =>
            { q := n.q, die := d, phys := p, lane := 0, beat := t + j + 6, exp := t / c.frame.explen, src := some n.cl,
              org := (d, p) : VFlit }) ++ m.flits }
      else m
    | none => m

/-- Every program takes its beat. -/
def Sim.issue (m : Sim) (c : Check) (t : Nat) : Sim :=
  m.nodes.foldl (fun m n =>
    if m.why ≠ 0 then m
    else
      let b := n.beat c.frame (c.own = some n.q) (c.follows n.q) t
      let m := { m with blind := m.blind || b.blind }
      if b.taken.why ≠ 0 then m.stop b.taken.why
      else
        let m := m.modNode n.q n.cl fun _ => b.taken.node
        let m := b.taken.out.foldl (fun m x => m.effect c t b.taken.node x) m
        if c.own = some n.q && portClash b.taken.node.uses t then m.stop 0x0402 else m) m

/-- Beats by which a flit may come to a cluster later than as placed, over the positions of the standing-in sets (R34, R335). -/
def Check.spread (c : Check) (x : VFlit) (cl : Nat) : Nat :=
  let from_ := match x.src with
    | some k => c.sets x.q k
    | none => [x.org]
  let far := (from_.map fun a => (c.sets x.q cl).map fun b => oneWay a.1 a.2 b.1 b.2).flatten.foldl max 0
  far - oneWay x.org.1 x.org.2 x.die x.phys

/-- A flit is switched to LOC: the cluster's RECV takes it (R200, R201), and what it brings is there on every beat on which
another placement would bring it (R335). -/
def Sim.deliver (m : Sim) (c : Check) (t : Nat) (x : VFlit) : Sim :=
  match m.nodes.find? fun n => n.q = x.q && c.place n.q n.cl = some (x.die, x.phys) with
  | none => m.stop c.noRecv
  | some n =>
    match n.recv with
    | none => m.stop c.noRecv
    | some (base, k, got) =>
      let use : VUse := { slice := sliceOf (base + 256 * got), port := 1, first := t, last := t, step := 1 }
      let worst := t + c.spread x n.cl
      let lo := base + 256 * got
      let n := { n with recv := if got + 1 = k then none else some (base, k, got + 1), uses := use :: n.uses,
                        late := if t < worst then (lo, lo + 256, worst) :: n.late else n.late }
      let m := m.modNode n.q n.cl fun _ => n
      if c.frame.lastBeat t < worst then m.stop 0x0902
      else if c.own = some n.q && portClash n.uses t then m.stop 0x0402 else m

/-- A flit is switched to an output (R196, R201, R250, R292). -/
def Sim.switch (m : Sim) (c : Check) (t : Nat) (x : VFlit) (out : Nat) : Sim :=
  if x.exp ≠ t / c.frame.explen && (out = 0 || out = 5 || out = 6) then m.stop 0x0802
  else if out = 0 then m.deliver c t x
  else
    match laneNext x.die x.phys out with
    | some (d, p, lane) => { m with flits := { x with die := d, phys := p, lane := lane, beat := t + laneCost out } :: m.flits }
    | none =>
      let eth := isEthRouter x.die x.phys
      let key := (x.q, if eth then 48 else linkKey x.die (edgeLink x.phys out))
      let uses := (key, t) :: m.links
      let m := { m with links := uses }
      if if eth then tooMany uses key t 3 2 else if c.level = 2 then tooMany uses key t 21 4 else tooMany uses key t 16 3 then m.stop 0x0404
      else
        match (if eth then none else c.ends x.q (linkKey x.die (edgeLink x.phys out))) with
        | some (q, d, p, lane) =>
          if c.follows q then
            { m with flits := { x with q := q, die := d, phys := p, lane := lane, beat := t + 52, src := none, org := (d, p) } ::
                       m.flits }
          else m
        | none => m

/-- A slot reads, on a beat, what a RECV has yet to bring, or brings later in another placement (R31, R335). -/
def Node.tooEarly (n : Node) (t : Nat) : Bool :=
  n.reads.any fun r => r.1 = t && ((match n.recv with
    | some (base, k, got) => decide (r.2.1 < base + 256 * k ∧ base + 256 * got < r.2.2)
    | none => false) || n.late.any fun x => r.2.1 < x.2.1 && x.1 < r.2.2 && t ≤ x.2.2)

/-- The routers of a package on a beat (R198, R201). -/
def Sim.routers (m : Sim) (c : Check) (t q : Nat) : Sim :=
  let idx := t % c.period
  let named := (c.tabs q).filter fun e => ephIndex e.1 = idx
  let here := m.flits.filter fun x => x.q = q && x.beat = t
  let at_ := fun (x : VFlit) (e : Nat × Nat) => clKey x.die x.phys = ephRouter e.1 && x.lane = e.2
  let m := { m with flits := m.flits.filter fun x => !(x.q = q && x.beat = t) }
  let lost := here.any fun x => !named.any fun e => at_ x e
  let twice := !pairwise (fun (x y : VFlit) => !(clKey x.die x.phys = clKey y.die y.phys && x.lane = y.lane)) here
  let empty := named.any fun e => !here.any fun x => at_ x e
  if lost || twice || empty then m.stop 0x0403
  else
    named.foldl (fun m e =>
      match here.find? fun x => at_ x e with
      | some x => if m.why ≠ 0 then m else m.switch c t x (ephOut e.1)
      | none => m) m

/-- The end of a beat: flag operations (R220, R221) and ports no longer used. -/
def Sim.endBeat (m : Sim) (t : Nat) : Sim :=
  let now := m.msgs.filter fun x => x.due ≤ t
  let put := fun (n : Node) =>
    let mine := now.filter fun x => x.q = n.q && x.cl = n.cl
    let fs := (mine.map (·.flag)).eraseDups.foldl (fun fs k =>
      Tab.set Flag.init fs k ((Tab.get Flag.init fs k).apply ((mine.filter fun x => x.flag = k).map (·.op)))) n.flags
    { n with flags := fs, uses := n.uses.filter fun u => t < u.last,
             reads := n.reads.filter fun r => t < r.1, late := n.late.filter fun x => t < x.2.2 }
  { m with nodes := m.nodes.map put, msgs := m.msgs.filter fun x => t < x.due }

/-- The start of an exposure: what is dead, and the board barriers' releases (R231). -/
def Sim.boundary (m : Sim) (t : Nat) : Sim :=
  let ready := m.bars.filter fun x => x.complete && x.decl.scope = 2
  let m := { m with nodes := m.nodes.map Node.boundary }
  (ready.foldl (fun m x => m.release x t) m).endBeat t

/-- One plate beat of the dry run. -/
def Sim.step (m : Sim) (c : Check) (qs : List Nat) (t : Nat) : Sim :=
  if m.why ≠ 0 || m.blind then m
  else
    let m := if t % c.frame.explen = 0 && t ≠ 0 then m.boundary (t - 1) else m
    let m := m.issue c t
    if m.why ≠ 0 || m.blind then m
    else if m.nodes.any fun n => n.tooEarly t then m.stop 0x0902
    else ((qs.filter c.follows).foldl (fun m q => if m.why ≠ 0 then m else m.routers c t q) m).endBeat t

/-- The plate beats from `t` on. -/
def Sim.run (c : Check) (qs : List Nat) : Nat → Nat → Sim → Sim
  | 0, _, m => m
  | fuel + 1, t, m => Sim.run c qs fuel (t + 1) (m.step c qs t)

/-- What the end of the run shows (R158, R200, R227). -/
def Sim.endReason (m : Sim) (c : Check) : Nat :=
  firstReason [refuse (m.nodes.any fun n => n.wait.isSome) 0x0501, refuse (m.nodes.any fun n => !n.ctx.ended) 0x0305,
    refuse (!m.flits.isEmpty) 0x0802, refuse (m.nodes.any fun n => n.recv.isSome) c.noRecv]

/-- The dry run of a plate-logical board: the last state and the reason. -/
def dryRun (c : Check) (nodes : List Node) : Sim :=
  let qs := (nodes.map (·.q)).eraseDups
  let bars := (qs.map fun q => (c.frame.bars q).map fun b => ({ q := q, decl := b, arrived := [], complete := false, until_ := 0 } : VBar)).flatten
  let m : Sim := { nodes := nodes, flits := [], msgs := [], bars := bars, links := [], crossed := [], blind := false, why := 0 }
  let m := Sim.run c qs (c.frame.explen * c.frame.nexp) 0 m
  if m.why ≠ 0 || m.blind then m else m.stop (m.endReason c)

/-! Nodes of an image. -/

/-- The flags of a cluster as BIND sets them (R218). -/
def flagsOf (fs : List FlagDecl) (cl : Nat) : Tab Flag :=
  (fs.filter fun f => f.cl = cl).foldl (fun t f => Tab.set Flag.init t f.flag
    { s := false, c := 0, th := f.th, opened := f.opened, sharer := f.sharer, sharen := f.sharen }) []

/-- A node with parameters and windows. -/
def nodeOf (bs : List Byte) (q cl : Nat) (params : Tab Word) (unknown : List Nat) (dsize : Nat) : Node :=
  { q := q, cl := cl, lines := linesOf bs q cl, ctx := { Ctx.init with params := params, dsize := dsize },
    unknown := unknown, count := 0, armedBy := [], wait := none, flags := flagsOf (flagsFor bs q) cl, boards := [],
    a0 := VArr.init, a1 := VArr.init, v0 := VUnit.init, v1 := VUnit.init, xb := [], x := [], xv := [], recv := none,
    late := [], reads := [], uses := [], open_ := [] }

/-- The registers a package's patch table writes in a cluster. -/
def patched (ps : List Ptch) (cl : Nat) : List Nat :=
  ((ps.filter fun e => e.cl = cl).map fun e => if e.kind = 2 then [e.reg, e.reg + 1] else [e.reg]).flatten.eraseDups

/-- The nodes of a package before it is bound: what BIND patches is unknown. -/
def looseNodes (bs : List Byte) (q : Nat) : List Node :=
  (clustersOf bs q).map fun cl => nodeOf bs q cl (parmOf bs q cl) (patched (ptchFor bs q) cl) 0

/-- The packages of a plate-logical board. -/
def boardOf (npkg b : Nat) : List Nat := (List.range 16).filterMap fun k => if 16 * b + k < npkg then some (16 * b + k) else none

/-! LOAD_PLATE's checks (R329, R331). -/

/-- Encoding faults of one program (R330: 0x0103 and class 0x03): its words, LOOP targets, and what a sync slot may name
on this plate. -/
def programReason (bs : List Byte) (x : Sect) (p : Prof) : Nat :=
  match decodeProgram (x.body bs) with
  | .error e => e
  | .ok ls =>
    let target := fun (l : Line) => match l.body with
      | .control (.loop w) => ls.any fun y => y.word = w.target
      | _ => true
    let far := fun (f : SyncSlot) => decide (f.tpkg ≠ 0) && (p.scope = 0 ||
      (List.range x.pkgn).any fun j => decide (p.npkg ≤ 16 * ((x.pkg0 + j) / 16) + f.tpkg))
    let names := fun (l : Line) => match l.body with
      | .slots ss => ss.any fun s => match s with
        | .sync _ f => far f
        | _ => false
      | _ => false
    firstReason [refuse (!ls.all target) 0x0301, refuse (ls.any names) 0x0304]

/-- The declarations of a FLAG section (R218, R229). -/
def flagReason (bs : List Byte) (p : Prof) (q : Nat) (g : Grant) : Nat :=
  let fs := flagsFor bs q
  let xs := barriersFor bs q
  let opened := fun (cl flag : Nat) => fs.any fun f => f.cl = cl && f.flag = flag && f.opened
  let barBad := fun (b : BarDecl) =>
    2 < b.scope || g.barriers ≤ b.number || g.flags ≤ b.flag || (b.scope = 2 && p.scope = 0) ||
    (b.scope = 0 && !(b.members.all fun x => b.members.all fun y => x / 24 = y / 24)) ||
    b.members.any fun cl => !(clustersOf bs q).contains cl || opened cl b.flag
  firstReason [refuse (fs.any fun f => 47 < f.cl || f.th = 0 || 65535 < f.th) 0x0302,
    refuse (!pairwise (fun (x y : BarDecl) => x.number ≠ y.number) xs || xs.any barBad) 0x0504]

/-- A cluster has a PARM section that covers every package of a range. -/
def hasParm (bs : List Byte) (x : Sect) (cl : Nat) : Bool :=
  (List.range x.pkgn).all fun j => (sectFor bs 4 cl (x.pkg0 + j)).isSome

/-- The contents of one section (class 0x03, and R326). -/
def sectReason (bs : List Byte) (p : Prof) (g : Grant) (x : Sect) : Nat :=
  match x.typ with
  | 2 => (declFor bs x.pkg0).reason
  | 3 => programReason bs x p
  | 5 => refuse ((ptchFor bs x.pkg0).any fun e => e.bad p.npkg (hasParm bs x)) 0x0302
  | 6 =>
    firstReason ((List.range x.pkgn).map fun j =>
      (ephmFor bs x.pkg0).reason p.period p.npkg (clustersOf bs (x.pkg0 + j)))
  | 7 => firstReason ((List.range x.pkgn).map fun j => flagReason bs p (x.pkg0 + j) g)
  | _ => 0

/-- The compiled ground of a package; links are known only where the board is. -/
def compiledGround (e : Ephm) : Ground := { place := e.placeOf, link := fun _ _ _ => none }

/-- A package's tables against its records (R330: 0x0403), where no record needs the board. -/
def tablesReason (e : Ephm) (period : Nat) : Nat :=
  let t := e.entries
  let board := e.records.any RouteRec.usesLink
  firstReason [refuse (t.any fun x => badEntry x.1 x.2) 0x0403,
    refuse (!board && expandAll e.records (compiledGround e) period ≠ some t) 0x0403]

/-- The frame of a plate's dry run. -/
def frameOf (bs : List Byte) (g : Grant) (aps : List Aperture) (stands : Option (List (Nat × Nat × Nat))) : Frame :=
  let p := profOf bs
  { cat := p.cat, explen := p.explen, nexp := p.nexp, flagCount := g.flags, apertures := aps, stands := stands,
    bars := barriersFor bs, boardScope := 1 ≤ p.scope }

/-- The dry run of a plate-logical board as compiled. -/
def looseRun (bs : List Byte) (g : Grant) (b : Nat) : Nat :=
  let p := profOf bs
  let c : Check :=
    { frame := frameOf bs g [] none, scope := p.scope, npkg := p.npkg, period := p.period,
      place := fun q cl => (ephmFor bs q).placeOf cl, tabs := fun q => (ephmFor bs q).entries, ends := fun _ _ => none,
      sets := fun q cl => ((ephmFor bs q).placeOf cl).toList,
      follows := fun q => !(ephmFor bs q).records.any RouteRec.usesLink, own := none, noRecv := 0x0403, level := p.linklvl }
  (dryRun c ((boardOf p.npkg b).map (looseNodes bs)).flatten).why

/-- The plate uses a link: a route takes one, or a package of its board shares its flags and stamps over one. -/
def Prof.linked (p : Prof) (bs : List Byte) : Bool :=
  (p.scope ≠ 0 && 1 < p.npkg) || (List.range p.npkg).any fun q => (ephmFor bs q).records.any RouteRec.usesLink

/-- LINKLVL is 0 when no link is used (R323). -/
def Prof.linkReason (p : Prof) (bs : List Byte) : Nat := refuse (p.linklvl ≠ 0 && !p.linked bs) 0x0302

/-- The catalogues a stepping accepts (R2, R339). -/
def State.accepts (s : State) (cat : Nat) : Bool := cat = 1 || (cat = 2 && s.part.step ≠ 0xA1)

/-- Every check of LOAD_PLATE on an image (R329, R331): 0 where it passes. -/
def State.loadReason (s : State) (tenant : Nat) (bs : List Byte) : Nat :=
  let p := profOf bs
  let g := (s.tenant tenant).grant
  let c := containerReason bs bs.length
  if c ≠ 0 then c
  else
    let sig := s.signatureReason tenant bs
    if sig ≠ 0 then sig
    else
      let enc := firstReason (lengthsReason bs :: p.linkReason bs :: p.reason s.accepts :: (sections bs).map (sectReason bs p g))
      if enc ≠ 0 then enc
      else
        let qs := List.range p.npkg
        let tab := firstReason (qs.map fun q => tablesReason (ephmFor bs q) p.period)
        if tab ≠ 0 then tab else firstReason ((List.range ((p.npkg + 15) / 16)).map (looseRun bs g))

end Sys2Proof.Machine
end

