-- ==== Sys2Proof/Machine/Load.lean ====
section
/-!
DEFINITION. LOAD_PLATE and BIND (R306, R312, R314, R316, R324, R329, R332 to R338), and the placing that a sparing event
repeats (R337).
-/

namespace Sys2Proof.Machine

/-! LOAD_PLATE. -/

def plateForm (apt offset len : Nat) : CmdForm :=
  { code := 0x06, reads := fun f => fieldAt f 0 1 = apt && fieldAt f 4 4 = offset && fieldAt f 8 4 = len,
    fields := leBytes 1 apt ++ leBytes 3 0 ++ leBytes 4 offset ++ leBytes 4 len, fabric := true }

/-- LOAD_PLATE (R329): a refusal changes nothing; success keeps the image and releases the old binding. -/
def execLoadPlate (h : CmdHead) (apt offset len : Nat) (s : State) : Host.Outcome State Fault Refusal :=
  done s (s.command h (plateForm apt offset len) (
    let t := s.tenant h.tenant
    s.judge h (fits apt 8 && fits offset 32 && 1 ≤ len && len ≤ 67108864) false
      (t.st = .opened || t.st = .loaded || t.st = .halted) (
      match t.range apt offset len with
      | none => s.reply_ h .bounds
      | some a => s.loaderFetch h a offset len fun s bs =>
        let why := s.loadReason h.tenant bs
        if why ≠ 0 then s.complete h .verify none 0 0 (leBytes 2 why)
        else
          let digest := plateDigest bs
          let s := s.release_ h.tenant
          let t := { s.tenant h.tenant with st := .loaded, plate := some { image := bs, digest := digest } }
          ((s.setTenant h.tenant t).complete h .ok none 0 0 (leBytes 2 0 ++ leBytes 4 digest.toNat)).touch)))

/-! BIND: what is bound. -/

/-- A failed BIND: its status and its reason code. -/
abbrev Fail := Status × Nat

/-- The first of several checks that fails. -/
def firstFail (xs : List (Bool × Status × Nat)) : Option Fail := (xs.find? fun x => x.1).map fun x => x.2

/-- A plate to be placed: its image, the entries of BIND, and what the other packages answered. -/
structure Job where
  tenant : Nat
  bs : List Byte
  entries : List (Nat × Nat)
  packages : List (Nat × Nat)
  peers : List PeerPlate

def Job.prof (j : Job) : Prof := profOf j.bs

/-- The own plate-logical package (R333). -/
def State.ownPkg (s : State) (j : Job) : Nat :=
  if j.prof.scope = 0 then 0
  else ((List.range j.packages.length).find? fun q => j.packages.getD q (0, 0) = (s.slot, s.boardIndex)).getD j.packages.length

/-- No two packages of one plate-logical board on different board indices. -/
def boardsWhole (ps : List (Nat × Nat)) : Bool :=
  let at_ := fun (q : Nat) => (ps.getD q (0, 0)).2
  (List.range ps.length).all fun q => at_ q = at_ (16 * (q / 16))

/-- The package entries against PROF and the records in force (R333, R330: 0x0A02). -/
def State.packagesBad (s : State) (j : Job) : Bool :=
  let p := j.prof
  let ps := j.packages
  if p.scope = 0 then !ps.isEmpty
  else
    let listed := match s.board with
      | some b => ps.all fun x => x.2 ≠ s.boardIndex || b.slots.contains x.1
      | none => false
    let known := match s.sys with
      | some r => ps.all fun x => r.packages.any fun e => e.1 = (x.2, x.1)
      | none => false
    ps.length ≠ p.npkg || !ps.contains (s.slot, s.boardIndex) || ps.eraseDups.length ≠ ps.length || !boardsWhole ps ||
      !listed || (if p.scope = 1 then ps.any fun x => x.2 ≠ s.boardIndex else !known)

/-- The clusters with a program on this package, each with its entry: (plate-logical, die, device-logical). -/
def State.wanted (s : State) (j : Job) : List (Nat × Nat × Nat) :=
  (clustersOf j.bs (s.ownPkg j)).filterMap fun cl => (j.entries[cl]?).map fun e => (cl, e.1, e.2)

/-- The cluster entries (R306, R323, R333). -/
def State.entriesFail (s : State) (j : Job) : Option Fail :=
  let n := j.entries.length
  let e := fun (i : Nat) => j.entries.getD i (0, 0)
  firstFail [((List.range n).any (fun i => (e i).1 ≠ i / 24), .verify, 0x0A06),
    (decide (j.entries.eraseDups.length ≠ n), .verify, 0x0A06),
    (j.entries.any fun x => j.prof.mach ≤ x.2 || (s.physOf x.1 x.2).isNone, .verify, 0x0705),
    ((clustersOf j.bs (s.ownPkg j)).any fun cl => decide (n ≤ cl), .verify, 0x0705)]

/-- A tenant that holds a binding has a device-logical cluster in it. -/
def Tenant.binds (t : Tenant) (die logical : Nat) : Bool :=
  match t.binding with
  | some b => b.sites.any fun x => x.die = die && x.logical = logical
  | none => false

/-- The slots in which a schedule gives a tenant every one of some clusters. -/
def Sched.ownSlots (x : Sched) (tenant : Nat) (ws : List (Nat × Nat × Nat)) : List Nat :=
  (List.range x.nslot).filter fun k =>
    ws.all fun w => Tab.get 0xFFFF x.owner (k * 48 + w.2.1 * 24 + w.2.2) = tenant

/-- Whether the plate would rotate (R314). -/
def State.rotates (s : State) (j : Job) : Bool :=
  match s.schedule with
  | some x => (x.ownSlots j.tenant (s.wanted j)).length < x.nslot
  | none => false

/-- Ownership (R306, R312, R314). -/
def State.ownerFail (s : State) (j : Job) : Option Fail :=
  let ws := s.wanted j
  match s.schedule with
  | some x => firstFail [((x.ownSlots j.tenant ws).isEmpty, .bounds, 0)]
  | none =>
    firstFail [(s.tenants.any fun e => e.1 ≠ j.tenant && ws.any fun w => e.2.binds w.2.1 w.2.2, .busy, 0)]

/-- A rotating plate (R316). -/
def State.rotateFail (s : State) (j : Job) : Option Fail :=
  match s.schedule with
  | none => none
  | some x =>
    if !s.rotates j then none
    else
      let p := j.prof
      let bound := if p.scope = 0 then p.bound - (p.lead + 6) * 65536 + 100 * 65536 else p.bound
      firstFail [(decide (x.slotns * 65536 < bound + 1300 * 65536) || p.scope = 2, .verify, 0x0805),
        (p.scope = 1 && j.peers.any fun y => y.sched ≠ x.digest, .verify, 0x0A05)]

/-- The bytes of the BIND entry list. -/
def Job.entryBytes (j : Job) : List Byte :=
  (j.entries.map fun e => leBytes 2 (e.2 + 32 * e.1)).flatten ++ (j.packages.map fun p => leBytes 4 (p.1 + 16 * p.2)).flatten

/-- PROF against this package and its partition (R49, R262, R323, R338, R339, R345). -/
def State.profFail (s : State) (j : Job) : Option Fail :=
  let p := j.prof
  firstFail [(!s.accepts p.cat || (p.scope ≠ 0 && j.peers.any fun y => y.board = s.boardIndex && !y.accepts), .verify, 0x0901),
    (gradeClusters s.part.grade < p.mach || p.modeBad, .verify, 0x0705),
    (p.scope ≠ 0 && p.lead < s.clock.xmin, .verify, 0x0803)]

/-- The plate and the entries against the partition packages already bound (R338). -/
def Job.partnersFail (j : Job) (board : Nat) (digest : BitVec 384) : Option Fail :=
  let own := Config.sha384 j.entryBytes
  firstFail [(j.prof.scope ≠ 0 && j.peers.any fun y => y.board = board && match y.bound with
    | some (d, e) => d ≠ digest || e ≠ own
    | none => false, .verify, 0x0A05)]

/-- Aperture needs (R325). -/
def State.needsFail (s : State) (j : Job) : Option Fail :=
  let d := declFor j.bs (s.ownPkg j)
  let t := s.tenant j.tenant
  let unmet := fun (x : Need) => match t.aperture x.apt, j.entries[x.cl]? with
    | some a, some e => a.die ≠ e.1 || a.cluster ≠ e.2 || a.size < x.size || !d.declared.contains (x.cl, a.slice)
    | _, _ => true
  firstFail [(d.needs.any unmet, .verify, 0x0603)]

/-! The patch table (R332). -/

/-- The shared address of the first byte of a tenant's aperture on a package (R7). -/
def State.apertureAddr (s : State) (j : Job) (q apt : Nat) : Option Nat :=
  let addr := fun (slot : Nat) (a : Aperture) => slot * 2 ^ 44 + a.die * 2 ^ 43 + a.cluster * 2 ^ 38 + a.lo
  if q = s.ownPkg j then ((s.tenant j.tenant).aperture apt).map (addr s.slot)
  else
    match j.packages[q]? with
    | none => none
    | some (slot, board) =>
      match j.peers.find? fun y => y.slot = slot && y.board = board with
      | none => none
      | some y => ((y.apertures.map ApEntry.aperture).find? fun a => a.apt = apt).map (addr slot)

/-- The value an entry adds; a reason where it has none. -/
def State.patchValue (s : State) (j : Job) (e : Ptch) : Except Nat Nat :=
  match e.kind with
  | 1 =>
    match (s.tenant j.tenant).aperture e.arg, j.entries[e.cl]? with
    | some a, some x => if a.die = x.1 && a.cluster = x.2 then .ok a.lo else .error 0x0603
    | _, _ => .error 0x0603
  | 2 =>
    match s.apertureAddr j e.pkg e.arg with
    | some a => .ok a
    | none => .error 0x0603
  | 3 =>
    match j.entries[e.arg]? with
    | some x => .ok (x.2 + 32 * x.1)
    | none => .error 0x0705
  | _ =>
    if j.prof.scope = 0 then .ok s.slot
    else match j.packages[e.pkg]? with
      | some x => .ok x.1
      | none => .error 0x0A02

/-- Add a value to a register; SADDR carries into the next. -/
def applyPatch (params : Tab Word) (e : Ptch) (value : Nat) : Tab Word :=
  let v := value * 2 ^ e.shift
  let at_ := fun (r : Nat) => (Tab.get 0 params r).toNat
  if e.kind = 2 then
    let lo := at_ e.reg + v % 2 ^ 32
    let params := Tab.set 0 params e.reg (BitVec.ofNat 32 lo)
    Tab.set 0 params (e.reg + 1) (BitVec.ofNat 32 (at_ (e.reg + 1) + v / 2 ^ 32 + lo / 2 ^ 32))
  else Tab.set 0 params e.reg (BitVec.ofNat 32 (at_ e.reg + v))

/-- A cluster's parameters as bound (R168, R332), or a reason. -/
def State.boundParams (s : State) (j : Job) (cl : Nat) : Except Nat (Tab Word) :=
  let q := s.ownPkg j
  ((ptchFor j.bs q).filter fun e => e.cl = cl).foldl (fun r e =>
    match r, s.patchValue j e with
    | .error x, _ => .error x
    | _, .error x => .error x
    | .ok params, .ok v => .ok (applyPatch params e v)) (.ok (parmOf j.bs q cl))

/-! Resources (R149, R218, R229, R306, R337). -/

/-- The lowest place for `size` units below `limit` that meets no range in use. -/
def lowestFree (used : List (Nat × Nat)) (size limit : Nat) : Option Nat :=
  if limit < size then none
  else (List.range (limit - size + 1)).find? fun b => used.all fun u => u.2 = 0 || b + size ≤ u.1 || u.1 + u.2 ≤ b

/-- One cluster's share of a placing. -/
structure Share where
  site : Site
  params : Tab Word
  lbase : Nat
  dbase : Nat
  fbase : Nat
  bbase : Nat

/-- The barrier partitions other tenants hold at a die's hub. -/
def State.barrierRanges (s : State) (die tenant : Nat) : List (Nat × Nat) :=
  ((s.clusters.filter fun e => e.1 / 24 = die).map fun e =>
    (e.2.ctxs.filter fun k => k.2.valid && k.2.tenant ≠ tenant).map fun k => (k.2.bbase, k.2.bcount)).flatten

/-- Grant one cluster's context, windows, flags and barriers. -/
def State.share (s : State) (j : Job) (w : Nat × Nat × Nat) : Except Fail Share :=
  let (cl, die, logical) := w
  let g := (s.tenant j.tenant).grant
  match s.physOf die logical, s.boundParams j cl with
  | none, _ => .error (.verify, 0x0705)
  | _, .error why => .error (.verify, why)
  | some phys, .ok params =>
    let held := (s.cluster die phys).ctxs.filter fun k => k.2.valid
    let used := fun (f : Ctx → Nat × Nat) => held.map fun k => f k.2
    match (List.range 16).find? fun n => !held.any fun k => k.1 = n with
    | none => .error (.verify, 0x0701)
    | some n =>
      if g.lwin * 1024 < (bodyFor j.bs 3 cl (s.ownPkg j)).length then .error (.verify, 0x0702)
      else
        match lowestFree (used fun k => (k.lbase, k.lsize)) g.lwin 256, lowestFree (used fun k => (k.dbase, k.dsize)) g.dwin 64,
            lowestFree (used fun k => (k.fbase, k.fcount)) g.flags 256,
            lowestFree (s.barrierRanges die j.tenant) g.barriers 256 with
        | none, _, _, _ => .error (.busy, 0x0702)
        | _, none, _, _ => .error (.busy, 0x0702)
        | _, _, none, _ => .error (.busy, 0x0703)
        | _, _, _, none => .error (.busy, 0x0703)
        | some lb, some db, some fb, some bb =>
          .ok { site := { cl := cl, die := die, logical := logical, phys := phys, ctx := n }, params := params, lbase := lb,
                dbase := db, fbase := fb, bbase := bb }

/-- Grant every cluster's share. -/
def State.shares (s : State) (j : Job) : Except Fail (List Share) :=
  (s.wanted j).foldl (fun r w =>
    match r, s.share j w with
    | .error x, _ => .error x
    | _, .error x => .error x
    | .ok xs, .ok x => .ok (xs ++ [x])) (.ok [])

/-! The ephemeris as bound (R326, R334, R335). -/

/-- Bundle member m of a slot on a die toward another slot (R326). -/
def Board.member (b : Board) (own slot die m : Nat) : Option Nat :=
  ((List.range 24).filter fun l => b.far.any fun (e : (Nat × Nat × Nat) × Option (Nat × Nat × Nat)) =>
    e.1 = (own, die, l) && match e.2 with
      | some x => x.1 = slot
      | none => false)[m]?

/-- Bundle member m on a die toward a board slot, by the board topology record (R326). -/
def State.member (s : State) (slot die m : Nat) : Option Nat := s.board.bind fun b => b.member s.slot slot die m

/-- A link scheduled traffic may use (R264 to R266). -/
def Link.fit (l : Link) : Bool := l.st = .up && !l.swapx && !l.remap

/-- The link of a package, die and member; none where it is not fit. -/
def State.memberLink (s : State) (j : Job) (q die m : Nat) : Option Nat :=
  match j.packages[q]? with
  | some (slot, board) =>
    if board ≠ s.boardIndex then none
    else match s.member slot die m with
      | some l => if (s.link die l).fit then some l else none
      | none => none
  | none => none

/-- A place for each bound cluster: (plate-logical cluster, die, position). -/
abbrev Places := List (Nat × Nat × Nat)

def Places.at_ (ps : Places) (cl : Nat) : Option (Nat × Nat) := (ps.find? fun x => x.1 = cl).map fun x => x.2

/-- The ground of a placing. -/
def State.ground (s : State) (j : Job) (ps : Places) : Ground := { place := ps.at_, link := s.memberLink j }

/-- The slot of a plate-logical package that stands on this board. -/
def State.slotOfPkg (s : State) (j : Job) (q : Nat) : Option Nat :=
  match j.packages[q]? with
  | some (slot, board) => if board = s.boardIndex then some slot else none
  | none => none

/-- The ground of another package of the board, as the plate was compiled and the board topology record wires it. -/
def State.peerGround (s : State) (j : Job) (q : Nat) : Ground :=
  { place := (ephmFor j.bs q).placeOf,
    link := fun x die m => match s.board, s.slotOfPkg j q, s.slotOfPkg j x with
      | some b, some own, some slot => b.member own slot die m
      | _, _, _ => none }

/-- The sync link of each die to each other package of the plate on this board (R252), fixed for the run. -/
def State.syncLinks (s : State) (j : Job) : List (Nat × Nat × Nat) :=
  let partners := (j.packages.filter fun x => x.2 = s.boardIndex && x.1 ≠ s.slot).map (·.1)
  if j.prof.scope = 0 then []
  else partners.flatMap fun k => [0, 1].filterMap fun die => (s.bundleLinkOn die k).map fun l => (k, die, l)

/-- The links a plate uses here: those its routes name, and the sync link of each die to each package of its board (R252). -/
def State.usedLinks (s : State) (j : Job) : List Nat :=
  let own := s.ownPkg j
  let member := fun (q m : Nat) => (s.memberLink j q (m / 8) (m % 8)).map fun l => linkKey (m / 8) l
  let routes := (ephmFor j.bs own).records.map fun r =>
    (if r.skind = 1 then [member r.spkg r.src] else []) ++ if r.leaves then [member r.farPkg r.dlmem] else []
  (routes.flatten.filterMap id ++ (s.syncLinks j).map (·.2.2)).eraseDups

/-- A level above the version negotiated on a link the plate uses (R262). -/
def State.levelFail (s : State) (j : Job) : Option Fail :=
  firstFail [((s.usedLinks j).any fun k => (s.link (k / 24) (k % 24)).ver < j.prof.linklvl, .unsupported, 0x0903)]

/-- The far end of a package's link, as the dry run takes a flit over it: package, die, router, input lane. -/
def State.farEnd (s : State) (j : Job) (q key : Nat) : Option (Nat × Nat × Nat × Nat) :=
  match s.board, s.slotOfPkg j q with
  | some b, some own =>
    match (b.far.find? fun e => e.1 = (own, key / 24, key % 24)).map (·.2) with
    | some (some (slot, die, link)) =>
      ((List.range j.packages.length).find? fun x => s.slotOfPkg j x = some slot).map fun x =>
        (x, die, stationPhys link, 5 + link % 2)
    | _ => none
  | _, _ => none

/-- The bound placement is the compiled one (R334). -/
def unmoved (e : Ephm) (ps : Places) : Bool := ps.all fun x => e.placeOf x.1 = some x.2

/-- The entries to be written: the tables as they stand, or the records expanded over the bound positions. -/
def State.entriesFor (s : State) (j : Job) (ps : Places) : Except Nat Entries :=
  let e := ephmFor j.bs (s.ownPkg j)
  let g := s.ground j ps
  if e.records.any fun r => r.usesLink && (r.hops g).isNone then .error 0x0A01
  else
    match expandAll e.records g j.prof.period with
    | none => .error 0x0403
    | some t => if unmoved e ps then (if t = e.entries then .ok t else .error 0x0403) else .ok t

/-- Entries that may not be used: lanes that are absent, an out router, the Ethernet station below system scope. -/
def State.entriesReason (s : State) (j : Job) (t : Entries) : Nat :=
  let eth := fun (e : Nat × Nat) => ephRouter e.1 = 6 && (ephOut e.1 = 5 || ephOut e.1 = 6)
  firstReason [refuse (t.any fun e => badEntry e.1 e.2) 0x0403,
    refuse (t.routers.any fun r => s.routerOut (r / 24) (r % 24)) 0x0A03,
    refuse (j.prof.scope ≠ 2 && t.any eth) 0x0A04]

/-- The positions of the standing-in sets (R34): every choice of at most one stand-in in each region. -/
def standings (ws : List (Nat × Nat × Nat)) : List Places :=
  let base : Places := ws.map fun w => (w.1, w.2.1, nominal w.2.2)
  let moves := fun (r : Nat) => none :: (ws.filter fun w => regionKey w.2.1 (nominal w.2.2) = r && nominal w.2.2 % 6 ≠ 2).map
    fun w => some w.1
  let put := fun (ps : Places) (c : Option Nat) => match c with
    | none => ps
    | some cl => ps.map fun x => if x.1 = cl then (x.1, x.2.1, 6 * (x.2.2 / 6) + 2) else x
  let all := (List.range 8).foldl (fun (acc : List Places) r => (acc.map fun ps => (moves r).map (put ps)).flatten) [base]
  all.filter fun ps => pairwise (fun (x y : Nat × Nat × Nat) => x.2 ≠ y.2) ps

/-- The standing-in set of a logical cluster: its nominal position and the column-2 cluster of its region (R34). -/
def standingIn (die l : Nat) : List (Nat × Nat) := [(die, nominal l), (die, 6 * (nominal l / 6) + 2)]

/-- The dry run of the own plate-logical board with this package as bound, the others as compiled (R331, R335, R336;
notes/assumptions/39.md). -/
def State.boundRun (s : State) (j : Job) (xs : List Share) (ps : Places) (t : Entries) (noRecv : Nat) : Sim :=
  let p := j.prof
  let own := s.ownPkg j
  let tn := s.tenant j.tenant
  let stands := xs.map fun x => (x.site.cl, x.site.die, x.site.logical)
  let mine := xs.map fun x => nodeOf j.bs own x.site.cl x.params [] tn.grant.dwin
  let others := ((boardOf p.npkg (own / 16)).filter fun q => q ≠ own).map (looseNodes j.bs)
  let peer := fun (q : Nat) => expandAll (ephmFor j.bs q).records (s.peerGround j q) p.period
  let c : Check :=
    { frame := frameOf j.bs tn.grant tn.apertures (some stands), scope := p.scope, npkg := p.npkg, period := p.period,
      place := fun q cl => if q = own then ps.at_ cl else (ephmFor j.bs q).placeOf cl,
      tabs := fun q => if q = own then t else (peer q).getD [],
      ends := s.farEnd j,
      sets := fun q cl => if q = own && p.sparetol then
          (match xs.find? fun x => x.site.cl = cl with
            | some x => standingIn x.site.die x.site.logical
            | none => [])
        else ((if q = own then ps.at_ cl else (ephmFor j.bs q).placeOf cl)).toList,
      follows := fun q => q = own || (peer q).isSome, own := some own, noRecv := noRecv, level := p.linklvl }
  dryRun c (mine ++ others.flatten)

/-- The spare-tolerant check (R335): the expanded routes pass for every position of the standing-in sets. -/
def State.tolerantReason (s : State) (j : Job) (xs : List Share) : Nat :=
  if !j.prof.sparetol then 0
  else
    let e := ephmFor j.bs (s.ownPkg j)
    refuse ((standings (s.wanted j)).any fun ps =>
      match expandAll e.records (s.ground j ps) j.prof.period with
      | none => true
      | some t => (s.boundRun j xs ps t 0x0902).why ≠ 0) 0x0902

/-- The dry run's reason on the plate as placed, the open waits, and the links its flags take. -/
def State.runFail (s : State) (j : Job) (xs : List Share) (ps : Places) (t : Entries) : Except Fail Sim :=
  let moved := !unmoved (ephmFor j.bs (s.ownPkg j)) ps
  let m := s.boundRun j xs ps t (if moved then 0x0902 else 0x0403)
  let own := s.ownPkg j
  let sync := ((m.crossed.filter fun x => x.1.1 = own).map fun x => x.1).eraseDups
  let unfit := fun (x : Nat × Nat × Nat) => match j.packages[x.2.2]? with
    | some (slot, _) => (match s.bundleLinkOn x.2.1 slot with
      | some k => !(s.link (k / 24) (k % 24)).fit
      | none => true)
    | none => true
  match firstFail [(decide (m.why ≠ 0), .verify, m.why),
    (m.nodes.any fun n => n.q = own && 64 < n.open_.length, .verify, 0x0703),
    (sync.any unfit, .verify, 0x0A01),
    (decide (s.tolerantReason j xs ≠ 0), .verify, 0x0902)] with
  | some f => .error f
  | none => .ok m

/-! Ephemeris partitions (R198, R199). -/

/-- Whether the schedule in force can run two tenants in one slot, the first with the clusters given. -/
def State.together (s : State) (tenant : Nat) (ws : List (Nat × Nat × Nat)) (other : Nat) : Bool :=
  match s.schedule, (s.tenant other).binding with
  | some x, some b => (x.ownSlots tenant ws).any fun k => x.owns other b k
  | _, _ => true

/-- A partition on one router: its number, base and lanes, or why there is none. -/
def State.partFail (s : State) (j : Job) (t : Entries) (router : Nat) : Except Fail (Nat × Nat × Nat × Nat) :=
  let die := router / 24
  let p := router % 24
  let parts := (List.range 16).map fun n => (n, s.partition die p n)
  let held := parts.filter fun x => x.2.valid
  let (outs, ins) := t.lanes router
  let clash := held.any fun x => x.2.tenant ≠ j.tenant && s.together j.tenant (s.wanted j) x.2.tenant &&
    (x.2.outs &&& outs ≠ 0 || x.2.ins &&& ins ≠ 0)
  if clash then .error (.busy, 0x0704)
  else
    match parts.find? fun x => !x.2.valid, lowestFree (held.map fun x => (x.2.base, x.2.period)) j.prof.period 4096 with
    | some x, some base => .ok (x.1, base, outs, ins)
    | _, _ => .error (.verify, 0x0704)

/-- Write one router's partition and entries. -/
def State.writePart (s : State) (j : Job) (t : Entries) (router : Nat) (x : Nat × Nat × Nat × Nat) : State :=
  let (n, base, outs, ins) := x
  let die := router / 24
  let p := router % 24
  let site := clSite die p
  let period := j.prof.period
  let words := (List.range period).map (t.word router)
  let r := s.router die p
  let s := s.setRouter die p { r with eph := Tab.setRun 0xFFFFFFFFFF r.eph base words,
                                      written := Tab.setRun 0xFFFFFFFFFF r.written base words }
  let s := s.setReg site (0x6040 + 4 * n) 0 (BitVec.ofNat 32 (base + (period - 1) * 4096 + 16777216))
  let s := s.setReg site (0x6080 + 4 * n) 0 (BitVec.ofNat 32 j.tenant)
  s.setReg site (0x60C0 + 4 * n) 0 (BitVec.ofNat 32 (outs + ins * 65536))

/-- Every router's partition. -/
def State.writeParts (s : State) (j : Job) (t : Entries) : Except Fail State :=
  t.routers.foldl (fun r router =>
    match r with
    | .error x => .error x
    | .ok (s : State) => match s.partFail j t router with
      | .error x => .error x
      | .ok x => .ok (s.writePart j t router x)) (.ok s)

/-! Writing the plate (R168, R218, R225, R229, R324, R336). -/

/-- A context as BIND leaves it. -/
def Share.ctx (x : Share) (tenant : Nat) (g : Grant) (waits : List (Nat × Nat)) : Ctx :=
  { Ctx.init with tenant := tenant, valid := true, lbase := x.lbase, lsize := g.lwin, dbase := x.dbase, dsize := g.dwin,
                  params := x.params, fbase := x.fbase, fcount := g.flags, bbase := x.bbase, bcount := g.barriers,
                  waitTable := waits }

/-- Set every flag of a partition (R218). -/
def Cluster.setFlags (c : Cluster) (base count : Nat) (fs : List FlagDecl) : Cluster :=
  let c := (List.range count).foldl (fun (c : Cluster) k => c.setFlag (base + k) Flag.init) c
  fs.foldl (fun (c : Cluster) f => c.setFlag (base + f.flag)
    { s := false, c := 0, th := f.th, opened := f.opened, sharer := f.sharer, sharen := f.sharen }) c

/-- Write one cluster's share; the cluster runs the context where the tenant owns it now (R314), cleared of what another
tenant left in it (notes/assumptions/54.md). -/
def State.writeShare (s : State) (j : Job) (m : Sim) (x : Share) : State :=
  let q := s.ownPkg j
  let g := (s.tenant j.tenant).grant
  let waits := match m.node q x.site.cl with
    | some n => n.open_
    | none => []
  let fs := (flagsFor j.bs q).filter fun f => f.cl = x.site.cl
  let mine : Bool := match s.schedule with
    | some y => decide <| Tab.get 0xFFFF y.owner (s.slotNow * 48 + x.site.die * 24 + x.site.logical) = j.tenant
    | none => true
  s.modCluster x.site.die x.site.phys fun c =>
    let c := (if mine then c.giveTo j.tenant else c).setCtx x.site.ctx (x.ctx j.tenant g waits)
    let c := c.setFlags x.fbase g.flags fs
    let lines := Tab.clearRange c.lines (x.lbase * 1024) ((x.lbase + g.lwin) * 1024)
    { c with lines := Tab.setRun 0 lines (x.lbase * 1024) (bodyFor j.bs 3 x.site.cl q),
             running := if mine then some x.site.ctx else c.running }

/-- The barriers of the plate on this package (R229). -/
def State.barriersOf (s : State) (j : Job) (xs : List Share) : List Barrier :=
  (barriersFor j.bs (s.ownPkg j)).map fun b =>
    { tenant := j.tenant, number := b.number, scope := b.scope, flag := b.flag,
      members := b.members.filterMap fun cl => (xs.find? fun x => x.site.cl = cl).map fun x => clKey x.site.die x.site.phys,
      arrivedBy := [], last := 0, complete := false }

/-- The record of the placing. -/
def State.bindingOf (s : State) (j : Job) (xs : List Share) : Binding :=
  let p := j.prof
  let q := s.ownPkg j
  { entries := j.entries, sites := xs.map (·.site), packages := j.packages, xout := xoutFor j.bs, own := q, scope := p.scope,
    exps := p.nexp, explen := p.explen, lead := p.lead, pitch := p.pitch, slices := (declFor j.bs q).declared,
    syncLinks := s.syncLinks j, rotating := s.rotates j, cat := p.cat, seed := p.seed, peers := j.peers }

/-- Place a plate on a state that holds no binding of the tenant (R336): the state with everything written and the binding
recorded, or the first failure. -/
def State.place (s : State) (j : Job) (digest : BitVec 384) : Except Fail State :=
  let first := [firstFail [(s.packagesBad j, .verify, 0x0A02)], s.profFail j, s.levelFail j, s.entriesFail j, s.ownerFail j, s.rotateFail j,
    s.needsFail j, firstFail [((flagsFor j.bs (s.ownPkg j)).any fun f => (s.tenant j.tenant).grant.flags ≤ f.flag,
      .verify, 0x0703)]]
  match first.findSome? id with
  | some f => .error f
  | none =>
    match s.shares j with
    | .error f => .error f
    | .ok xs =>
      let ps : Places := xs.map fun x => (x.site.cl, x.site.die, x.site.phys)
      match s.entriesFor j ps with
      | .error why => .error (.verify, why)
      | .ok t =>
        let why := s.entriesReason j t
        if why ≠ 0 then .error (.verify, why)
        else
          match s.writeParts j t, s.runFail j xs ps t with
          | .error f, _ => .error f
          | _, .error f => .error f
          | .ok s', .ok m =>
            match j.partnersFail s.boardIndex digest with
            | some f => .error f
            | none =>
              let s' := xs.foldl (fun s' x => s'.writeShare j m x) s'
              let s' := { s' with barriers := s'.barriers ++ s.barriersOf j xs }
              .ok (s'.setTenant j.tenant { s'.tenant j.tenant with binding := some (s.bindingOf j xs) })

/-! BIND. -/

def bindLegal (clusters packages : List (Nat × Nat)) : Bool :=
  1 ≤ clusters.length && clusters.length ≤ 48 && packages.length ≤ 4096 &&
    (clusters.all fun e => e.1 ≤ 1 && fits e.2 5) && packages.all fun p => fits p.1 4 && fits p.2 12

/-- The entries of a BIND (R300), each byte pair or quadruple as its fields. -/
def readBind (f : List Byte) : List (Nat × Nat) × List (Nat × Nat) :=
  let n := fieldAt f 0 1
  ((List.range n).map fun i => let v := fieldAt f (4 + 2 * i) 2
    (v / 32 % 2, v % 32), (List.range (fieldAt f 2 2)).map fun i => let v := fieldAt f (4 + 2 * n + 4 * i) 4
    (v % 16, v / 16 % 4096))

def bindForm (clusters packages : List (Nat × Nat)) : CmdForm :=
  { code := 0x07, reads := fun f => readBind f = (clusters, packages), fabric := true,
    fields := leBytes 1 clusters.length ++ leBytes 1 0 ++ leBytes 2 packages.length ++
      (clusters.flatMap fun e => leBytes 2 (e.2 % 32 + e.1 % 2 * 32)) ++
      packages.flatMap fun p => leBytes 4 (p.1 % 16 + p.2 % 4096 * 16) }

/-- Where a package's datagrams go: its address in the system record (R291), the port of OCT. -/
def State.endOf (s : State) (board slot : Nat) : Option UdpEnd :=
  match s.sys with
  | some r => (r.packages.find? fun e => e.1 = (board, slot)).map fun e => { ip := e.2, port := s.eth.octport }
  | none => none

/-- The PEER sessions of a system-scope plate (R294), one with each other package, in place of any before: the package whose
board index and slot are lower opens it and sends with DIR 0. -/
def State.openPeers (s : State) (tenant : Nat) (b : Binding) : State :=
  let s := s.setTenant tenant { s.tenant tenant with peers := [] }
  if b.scope ≠ 2 then s
  else
    let ackt := match s.sys with
      | some r => r.ackt
      | none => 8
    let own := (s.boardIndex, s.slot)
    (b.packages.filter fun p => (p.2, p.1) ≠ own).foldl (fun s p =>
      let first := own.1 < p.2 || (own.1 = p.2 && own.2 < p.1)
      let id := if first then (Config.entropy s.boot.entropyUsed).toNat else 0
      let s := if first then { s with boot := { s.boot with entropyUsed := s.boot.entropyUsed + 1 } } else s
      let t := s.tenant tenant
      let x : PeerSession := { board := p.2, slot := p.1, dir := if first then 0 else 1,
                               sess := { Session.opened id ackt 0 with src := s.endOf p.2 p.1 } }
      s.setTenant tenant { t with peers := t.peers ++ [x] }) s

/-- BIND (R306, R336). -/
def execBind (h : CmdHead) (clusters packages : List (Nat × Nat)) (peers : List PeerPlate) (s : State) :
    Host.Outcome State Fault Refusal :=
  done s (s.command h (bindForm clusters packages) (
    let t := s.tenant h.tenant
    s.judge h (bindLegal clusters packages) false (t.st = .loaded) (
      match t.plate with
      | none => s.reply_ h .state
      | some p =>
        let j : Job := { tenant := h.tenant, bs := p.image, entries := clusters, packages := packages, peers := peers }
        match s.place j p.digest with
        | .error (st, why) => s.complete h st none 0 0 (leBytes 2 why)
        | .ok s =>
          let s := s.setTenant h.tenant { s.tenant h.tenant with st := .bound, staged := [] }
          let s := match (s.tenant h.tenant).binding with
            | some b => s.openPeers h.tenant b
            | none => s
          (s.complete h .ok none 0 0 (leBytes 2 0)).touch)))

/-! Placing again (R337). -/

/-- The code of a re-placement that finds a cluster owned by another tenant. -/
def replaceCode (f : Fail) : Nat := if f.1 = .busy && f.2 = 0 then 0x0705 else f.2

/-- Place a tenant's plate again: it keeps its state, or returns to Loaded, recorded under cause 0x18; the NOTE names the
record of the sparing event. -/
def State.replacePlate (s : State) (tenant : Nat) (seq : Word) : State :=
  let t := s.tenant tenant
  match t.binding, t.plate with
  | some b, some p =>
    let j : Job := { tenant := tenant, bs := p.image, entries := b.entries, packages := b.packages, peers := b.peers }
    let s := s.unplace tenant b
    let s := s.setTenant tenant { s.tenant tenant with binding := none }
    match s.place j p.digest with
    | .ok s => s.sendStateNote tenant 0 seq
    | .error f =>
      let s := s.record 0 1 0x18 (some tenant) 0x1F 0 (BitVec.ofNat 64 (replaceCode f)) false
      (s.setTenant tenant { s.tenant tenant with peers := [] }).toLoaded tenant (replaceCode f) seq
  | _, _ => s

end Sys2Proof.Machine
end

