-- ==== Sys2Proof/Machine/Spare.lean ====
section
/-!
DEFINITION. Run-time sparing (R24, R25, R27, R28, R212, R413, R414), epochs (R209, R210) and the observing schedule (R313,
R314, R317).
-/

namespace Sys2Proof.Machine

/-! Sparing. -/

/-- End a halting run at once, whatever its regions have still to end (notes/assumptions/23.md). -/
def State.settleNow (s : State) (tenant : Nat) : State :=
  match (s.tenant tenant).run with
  | some r => match r.halting with
    | some x => s.endRun tenant x.status x.fseq x.h
    | none => s
  | none => s

/-- Halt a Running tenant on the beat in progress, with the newest record of a die as its cause. -/
def State.haltFor (s : State) (die tenant : Nat) : State :=
  if (s.tenant tenant).st = .running then
    (s.haltRun tenant (s.beatNow tenant) .fault (s.fseq die) true).settleNow tenant
  else s

/-- What takes a failed cluster's logical number (R24, R25): the column-2 cluster of its region when it is a spare, or
on a T48 carries its own number. -/
def State.standIn (s : State) (die p l : Nat) : Option Nat :=
  let q := 6 * (nominal l / 6) + 2
  if 20 ≤ l || q = p then none
  else
    match s.pstate die q, s.logOf die q with
    | 1, _ => some q
    | 0, some m => if 20 ≤ m then some q else none
    | _, _ => none

/-- The logical numbers a sparing event moves or makes absent: the failed cluster's, and on a T48 that of the
column-2 cluster that stands in. -/
def State.displaced (s : State) (die p : Nat) : List Nat :=
  match s.logOf die p with
  | none => []
  | some l =>
    match s.standIn die p l with
    | some q => l :: (s.logOf die q).toList
    | none => [l]

/-- Fill the stand-in's slices with zeros in every aperture range that moves (R311). -/
def State.zeroMoved (s : State) (die l q : Nat) : State :=
  s.tenants.foldl (fun s e => e.2.apertures.foldl (fun s a =>
    if a.valid && a.die = die && a.cluster = l then s.modCluster die q fun c => c.zero a.lo (a.size * 4096) else s) s) s

/-- Change the decode map (R24, R27, R38): the failed cluster's state, and its number to the stand-in or absent. -/
def State.remap (s : State) (die p state : Nat) : State :=
  let bist := fun (n : Nat) => (s.pmap die n).getLsbD 16
  match s.logOf die p with
  | none => s.setPmap die p (pmapWord 0x1F state (bist p))
  | some l =>
    let dead := s.setPmap die p (pmapWord 0x1F state (bist p))
    match s.standIn die p l with
    | none => dead.setLmap die l lmapAbsent
    | some q =>
      let s' := match s.logOf die q with
        | some m => dead.setLmap die m lmapAbsent
        | none => dead
      (s'.setLmap die l (lmapWord l q)).setPmap die q (pmapWord l 0 (bist q))

/-- Tenants whose binding holds one of some device-logical clusters of a die. -/
def State.bindersOf (s : State) (die : Nat) (ls : List Nat) : List Nat :=
  (s.tenants.filter fun e => ls.any fun l => e.2.binds die l).map (·.1)

/-- Tenants with an ephemeris partition at a router. -/
def State.routedThrough (s : State) (die p : Nat) : List Nat :=
  (((List.range 16).filter fun n => (s.partition die p n).valid).map fun n => (s.partition die p n).tenant).eraseDups

/-- Fence a cluster (R27, R211, R212): its TOPO_PMAP STATE changes, and every request that waits at its slices or its port is
answered FAULT. -/
def State.fence (s : State) (die p state : Nat) : State :=
  let w := s.pmap die p
  let s := s.setPmap die p ((w &&& ~~~0x300) ||| BitVec.ofNat 32 (state * 256))
  let r := s.router die p
  let s := s.setRouter die p { r with arrived := [], trailing := [] }
  let s := (r.arrived ++ r.trailing).foldl (fun s b => s.faultAnswer die p b.lane b.pkt) s
  (List.range 4).foldl (fun s i =>
    let x := (s.cluster die p).slice i
    let s := s.modSlice die p i fun x => { x with waiting := [], landing := [] }
    (x.waiting ++ x.landing).foldl (fun s y => s.faultAnswer die p y.lane y.pkt) s) s

/-- The rest of a sparing event, from the change of the map on (R27, R28, R414): the map changes with the epoch flip of both
dies, and TOPO_GEN of a die after its registers show it. -/
def State.finishSpare (s : State) (x : Sparing) : State :=
  let l := s.logOf x.die x.phys
  let stand := match l with
    | some l => s.standIn x.die x.phys l
    | none => none
  let s := match l, stand with
    | some l, some q => s.zeroMoved x.die l q
    | _, _ => s
  let s := s.remap x.die x.phys x.state
  let s := ((s.flipNow 0).flipNow 1).bumpGen x.die
  let s := (if l.isSome then s.bumpGen (1 - x.die) else s).measureMap
  let s := match l with
    | some l =>
      let s := s.record x.die 2 0x22 none x.phys 0 (BitVec.ofNat 64 (l + x.phys * 32 + stand.getD 0x1F * 1024)) true
      s.noteRecord x.die x.affected
    | none => s
  x.affected.foldl (fun s t => s.replacePlate t x.seq) s

/-- Sparing events whose change of the map waited are finished, one at a time, when no drain is pending on either die. -/
def State.settleSparing (s : State) : State :=
  match s.sparing with
  | [] => s
  | x :: xs => if s.die0.draining || s.die1.draining then s else ({ s with sparing := xs }).finishSpare x

/-- A run-time sparing event in the order of R414; `cause` is 0x20 or 0x21 and `state` the TOPO_PMAP state. The change of the
map waits for the end of an epoch drain that is pending (notes/assumptions/17.md). -/
def State.spare (s : State) (die p cause state trigger : Nat) : State :=
  let l := s.logOf die p
  let bound := s.bindersOf die (s.displaced die p)
  let through := if state = 2 then s.routedThrough die p else []
  let affected := (bound ++ through).eraseDups
  let s := s.fence die p state
  let s := s.record die 2 cause none p 0 (BitVec.ofNat 64 (l.getD 0x1F + trigger * 64)) true
  let seq := s.fseq die
  let s := s.noteRecord die affected
  let s := affected.foldl (fun s t => s.haltFor die t) s
  let x : Sparing := { die := die, phys := p, state := state, seq := seq, affected := affected }
  ({ s with sparing := s.sparing ++ [x] }).settleSparing

/-- The package has a map and its regions run or may run. -/
def State.sparable (s : State) (die p : Nat) : Bool :=
  die < 2 && p < 24 && s.topoGen 0 ≠ 0 && s.power.st ≠ .off && s.power.st ≠ .dark

/-- Trigger 0x2 of R413: one slice with uncorrectable words in 4 distinct rows within 1 s. -/
def State.rowsFailed (s : State) (die p : Nat) : Bool :=
  (List.range 4).any fun i =>
    let recent := ((s.cluster die p).slice i).ueRows.filter fun e => !s.elapsed e.2 1000000000
    4 ≤ (recent.map (·.1)).eraseDups.length

/-- SPARING_OCCULT (R413, R414). -/
def execSparingOccult (die phys trigger : Nat) (s : State) : Host.Outcome State Fault Refusal :=
  done s (
    let live := s.pstate die phys ≠ 2 && s.pstate die phys ≠ 3
    let seen := trigger = 1 || (trigger = 2 && s.rowsFailed die phys)
    if s.sparable die phys && live && seen then s.spare die phys 0x20 3 trigger else s)

/-- Trigger 0x3 of R413: a SCHED_ORIGIN record of the router with ORIGIN ROUTER. -/
def State.originRouter (s : State) (die p : Nat) : Bool :=
  (s.flt die).ring.any fun r => r.cause = 0x12 && r.phys = p && r.detail.toNat / 4294967296 % 4 = 2

/-- ROUTER_OUT (R212, R413, R414). -/
def execRouterOut (die phys trigger : Nat) (s : State) : Host.Outcome State Fault Refusal :=
  done s (
    let seen := trigger = 4 || (trigger = 3 && s.originRouter die phys)
    if s.sparable die phys && s.pstate die phys ≠ 2 && seen then s.spare die phys 0x21 2 trigger else s)

/-! Epochs (R209, R210). -/

/-- EPOCH_FLIP (R209): on beat f injections stamp the new epoch and the drain begins. -/
def execEpochFlip (die : Nat) (s : State) : Host.Outcome State Fault Refusal :=
  done s (
    let d := s.dieOf die
    match d.flipAt with
    | none => s
    | some f =>
      if f ≤ s.topBeat && !d.draining then
        s.setDie die { d with epoch := !d.epoch, flipAt := none, draining := true, drainFrom := f }
      else s)

/-- Routers of a die that hold old-epoch packets, those that wait at a port for their fences among them. -/
def State.undrained (s : State) (die : Nat) : List Nat :=
  let old := fun (b : Buffered) => b.pkt.ep ≠ epochBit (s.dieOf die).epoch
  (List.range 24).filter fun p => (s.router die p).bufs.any old || (s.router die p).trailing.any old

/-- The drain ends, DTO set in every router's BNET_STAT when by timeout; what the injection points held for it goes, and a
change of the map or of routes that waited for it is made now. -/
def State.endDrain (s : State) (die : Nat) (dto : Bool) : State :=
  let d := s.dieOf die
  let s := s.setDie die { d with draining := false, rewant := false }
  let s := if dto then (List.range 24).foldl (fun s p =>
      (s.setReg (clSite die p) 0x6004 0 16).note (clSite die p) 0x6004 0 16 fun a b => a ||| b) s
    else s
  let s := ((List.range 24).foldl (fun s p => s.pumpRouter die p) s).pumpEth
  let s := s.settleSparing
  if d.rewant then s.reroute die else s

/-- EPOCH_DRAINED (R209): every router has counted no old-epoch flit for 16 beats. -/
def execEpochDrained (die : Nat) (s : State) : Host.Outcome State Fault Refusal :=
  done s (
    let d := s.dieOf die
    let quiet := (List.range 24).all fun p =>
      s.routerOut die p || (s.router die p).quiet + 16 ≤ (s.regionOf die p).beat
    if d.draining && (s.undrained die).isEmpty && quiet && d.drainFrom + 16 ≤ s.topBeat then s.endDrain die false
    else s)

/-- EPOCH_DRAIN_TIMEOUT (R210): old-epoch packets are discarded, requests answered FAULT, the routers
recorded. -/
def execEpochDrainTimeout (die : Nat) (s : State) : Host.Outcome State Fault Refusal :=
  done s (
    let d := s.dieOf die
    if d.draining && d.drainFrom + 65536 ≤ s.topBeat then
      let bad := s.undrained die
      let s := bad.foldl (fun s p =>
        let r := s.router die p
        let stale := fun (b : Buffered) => b.pkt.ep ≠ epochBit d.epoch
        let old := r.bufs.filter stale ++ r.trailing.filter stale
        let s := s.setRouter die p { r with bufs := r.bufs.filter fun b => !stale b,
                                            trailing := r.trailing.filter fun b => !stale b }
        old.foldl (fun s b => s.faultAnswer die p b.lane b.pkt) s) s
      let mask := bad.foldl (fun (m : Nat) p => m + 2 ^ p) 0
      let s := s.record die 3 0x32 none 0x1F 0 (BitVec.ofNat 64 mask) false
      (s.noteRecord die []).endDrain die true
    else s)

/-! The observing schedule. -/

/-- OBS_SLOT_START (R313, R314): the slot in force, and every cluster whose owner has changed. -/
def execObsSlotStart (s : State) : Host.Outcome State Fault Refusal :=
  done s (
    match s.sched with
    | none => s
    | some x =>
      if x.nslot = 0 || !reached s.clock.sid x.s0 then s
      else
        let slot := x.slotsSince s.clock.sid % x.nslot
        { s with slotNow := slot }.switchAll x slot)

/-- SCHEDULE_EFFECT (R317): at S0 the new schedule takes the old one's place, and which plates rotate is taken from it. -/
def execScheduleEffect (s : State) : Host.Outcome State Fault Refusal :=
  done s (
    match s.nextSched with
    | none => s
    | some x =>
      if !reached s.clock.sid x.s0 then s
      else
        let turn := fun (e : Nat × Tenant) => match e.2.binding with
          | some b =>
            let all := (List.range x.nslot).all fun k => x.owns e.1 b k
            (e.1, { e.2 with binding := some ({ b with rotating := !all }) })
          | none => e
        { s with sched := some x, nextSched := none, tenants := s.tenants.map turn,
                 slotNow := x.slotsSince s.clock.sid % x.nslot,
                 fw := { s.fw with meas := Tab.set 0 s.fw.meas 8 x.digest } })

end Sys2Proof.Machine
end

