-- ==== Sys2Proof/Machine/Dispatch.lean ====
section
/-!
DEFINITION. The dispatch of a command to its meaning: one arm per constructor of Instr, in the order of
spec/opcode_table.json.
-/

namespace Sys2Proof.Machine

def exec (i : Instr) (s : State) : Host.Outcome State Fault Refusal :=
  match i with
  | .hello h session ackt => Sys2Proof.Machine.execHello h session ackt s
  | .openTenant h a => Sys2Proof.Machine.execOpenTenant h a s
  | .close h tenant => Sys2Proof.Machine.execClose h tenant s
  | .write h x segs => Sys2Proof.Machine.execWrite h x segs s
  | .read h x => Sys2Proof.Machine.execRead h x s
  | .loadPlate h apt offset len => Sys2Proof.Machine.execLoadPlate h apt offset len s
  | .bind h clusters packages peers => Sys2Proof.Machine.execBind h clusters packages peers s
  | .patch h x entries => Sys2Proof.Machine.execPatch h x entries s
  | .arm h => Sys2Proof.Machine.execArm h s
  | .launchAt h time => Sys2Proof.Machine.execLaunchAt h time s
  | .stop h mode x => Sys2Proof.Machine.execStop h mode x s
  | .query h => Sys2Proof.Machine.execQuery h s
  | .setWakeBudget h ns pkg => Sys2Proof.Machine.execSetWakeBudget h ns pkg s
  | .setPowerLimit h watts => Sys2Proof.Machine.execSetPowerLimit h watts s
  | .setPowerState h state => Sys2Proof.Machine.execSetPowerState h state s
  | .setPowerSlice h target die cluster slice => Sys2Proof.Machine.execSetPowerSlice h target die cluster slice s
  | .attest h nonce => Sys2Proof.Machine.execAttest h nonce s
  | .topologyBoard h apt offset len => Sys2Proof.Machine.execTopologyBoard h apt offset len s
  | .topologySystem h apt offset len => Sys2Proof.Machine.execTopologySystem h apt offset len s
  | .topologySchedule h apt offset len => Sys2Proof.Machine.execTopologySchedule h apt offset len s
  | .epoch h dies => Sys2Proof.Machine.execEpoch h dies s
  | .scalarInstruction site pos0 pos1 => Sys2Proof.Machine.execScalarInstruction site pos0 pos1 s
  | .stream site f => Sys2Proof.Machine.execStream site f s
  | .stationaryLoadNormal site f => Sys2Proof.Machine.execStationaryLoadNormal site f s
  | .stationaryLoadTransposed site f => Sys2Proof.Machine.execStationaryLoadTransposed site f s
  | .cnvSet site f => Sys2Proof.Machine.execCnvSet site f s
  | .tload site f => Sys2Proof.Machine.execTload site f s
  | .add site f => Sys2Proof.Machine.execAdd site f s
  | .sub site f => Sys2Proof.Machine.execSub site f s
  | .mul site f => Sys2Proof.Machine.execMul site f s
  | .fma site f => Sys2Proof.Machine.execFma site f s
  | .max site f => Sys2Proof.Machine.execMax site f s
  | .min site f => Sys2Proof.Machine.execMin site f s
  | .exp site f => Sys2Proof.Machine.execExp site f s
  | .rcp site f => Sys2Proof.Machine.execRcp site f s
  | .rsq site f => Sys2Proof.Machine.execRsq site f s
  | .gelu site f => Sys2Proof.Machine.execGelu site f s
  | .silu site f => Sys2Proof.Machine.execSilu site f s
  | .rsum site f => Sys2Proof.Machine.execRsum site f s
  | .rmax site f => Sys2Proof.Machine.execRmax site f s
  | .smxi site f => Sys2Proof.Machine.execSmxi site f s
  | .smxs site f => Sys2Proof.Machine.execSmxs site f s
  | .smxn site f => Sys2Proof.Machine.execSmxn site f s
  | .rope site f => Sys2Proof.Machine.execRope site f s
  | .vld site f => Sys2Proof.Machine.execVld site f s
  | .vst site f => Sys2Proof.Machine.execVst site f s
  | .rtld site f => Sys2Proof.Machine.execRtld site f s
  | .copy site f => Sys2Proof.Machine.execCopy site f s
  | .fill site f => Sys2Proof.Machine.execFill site f s
  | .d2s site f => Sys2Proof.Machine.execD2s site f s
  | .s2d site f => Sys2Proof.Machine.execS2d site f s
  | .send site f => Sys2Proof.Machine.execSend site f s
  | .recv site f => Sys2Proof.Machine.execRecv site f s
  | .flagSet site f => Sys2Proof.Machine.execFlagSet site f s
  | .flagClr site f => Sys2Proof.Machine.execFlagClr site f s
  | .waits site f => Sys2Proof.Machine.execWaits site f s
  | .waitc site f => Sys2Proof.Machine.execWaitc site f s
  | .flagCnt site f => Sys2Proof.Machine.execFlagCnt site f s
  | .arrive site f => Sys2Proof.Machine.execArrive site f s
  | .topk site f => Sys2Proof.Machine.execTopk site f s
  | .ixld site f => Sys2Proof.Machine.execIxld site f s
  | .gather site f => Sys2Proof.Machine.execGather site f s
  | .scatter site f => Sys2Proof.Machine.execScatter site f s
  | .paramSet site f => Sys2Proof.Machine.execParamSet site f s
  | .paramAddi site f => Sys2Proof.Machine.execParamAddi site f s
  | .mova site f => Sys2Proof.Machine.execMova site f s
  | .loop site w => Sys2Proof.Machine.execLoop site w s
  | .endProgram site => Sys2Proof.Machine.execEndProgram site s
  | .idleLine site rep => Sys2Proof.Machine.execIdleLine site rep s
  | .waitComplete site => Sys2Proof.Machine.execWaitComplete site s
  | .openWaitComplete site => Sys2Proof.Machine.execOpenWaitComplete site s
  | .waitTimeout site => Sys2Proof.Machine.execWaitTimeout site s
  | .remoteFlagApply die phys => Sys2Proof.Machine.execRemoteFlagApply die phys s
  | .barrierRelease tenant barrier => Sys2Proof.Machine.execBarrierRelease tenant barrier s
  | .runComplete tenant => Sys2Proof.Machine.execRunComplete tenant s
  | .launchWakeStart tenant => Sys2Proof.Machine.execLaunchWakeStart tenant s
  | .gateAnnounce tenant => Sys2Proof.Machine.execGateAnnounce tenant s
  | .gateStart region tenant => Sys2Proof.Machine.execGateStart region tenant s
  | .exposureArrival tenant => Sys2Proof.Machine.execExposureArrival tenant s
  | .stampReceive tenant slot exp stamp => Sys2Proof.Machine.execStampReceive tenant slot exp stamp s
  | .regionBeatBegin region badTag => Sys2Proof.Machine.execRegionBeatBegin region badTag s
  | .droopStretch region monitor slack => Sys2Proof.Machine.execDroopStretch region monitor slack s
  | .governorWindow region smin monitor => Sys2Proof.Machine.execGovernorWindow region smin monitor s
  | .voltageGrant region => Sys2Proof.Machine.execVoltageGrant region s
  | .rateShortfall tenant region span => Sys2Proof.Machine.execRateShortfall tenant region span s
  | .emergencyBegin cause => Sys2Proof.Machine.execEmergencyBegin cause s
  | .emergencyDutyStep => Sys2Proof.Machine.execEmergencyDutyStep s
  | .thermalTrip die sensor => Sys2Proof.Machine.execThermalTrip die sensor s
  | .railFault rail noAck => Sys2Proof.Machine.execRailFault rail noAck s
  | .leaderChoice peers => Sys2Proof.Machine.execLeaderChoice peers s
  | .leaderTimeout peers => Sys2Proof.Machine.execLeaderTimeout peers s
  | .ptpMessage offset => Sys2Proof.Machine.execPtpMessage offset s
  | .linkSignalDetect die link => Sys2Proof.Machine.execLinkSignalDetect die link s
  | .linkLock die link laneSwapped ppm => Sys2Proof.Machine.execLinkLock die link laneSwapped ppm s
  | .linkSignalTimeout die link => Sys2Proof.Machine.execLinkSignalTimeout die link s
  | .linkIdentEvaluate die link r => Sys2Proof.Machine.execLinkIdentEvaluate die link r s
  | .linkIdentTimeout die link => Sys2Proof.Machine.execLinkIdentTimeout die link s
  | .linkLeaveUp die link why => Sys2Proof.Machine.execLinkLeaveUp die link why s
  | .linkRequeueTimeout die link => Sys2Proof.Machine.execLinkRequeueTimeout die link s
  | .linkFrameReceive die link f => Sys2Proof.Machine.execLinkFrameReceive die link f s
  | .linkSchedConsume die link => Sys2Proof.Machine.execLinkSchedConsume die link s
  | .flagopReceive die link => Sys2Proof.Machine.execFlagopReceive die link s
  | .haltReceive die link => Sys2Proof.Machine.execHaltReceive die link s
  | .ephemerisSwitch die phys parityError => Sys2Proof.Machine.execEphemerisSwitch die phys parityError s
  | .schedOriginCheck die seq complete differs strayBeat => Sys2Proof.Machine.execSchedOriginCheck die seq complete differs strayBeat s
  | .unschedForward die phys lane => Sys2Proof.Machine.execUnschedForward die phys lane s
  | .bnetWriteArrive die phys => Sys2Proof.Machine.execBnetWriteArrive die phys s
  | .bnetReadArrive die phys => Sys2Proof.Machine.execBnetReadArrive die phys s
  | .bnetRdataArrive die src => Sys2Proof.Machine.execBnetRdataArrive die src s
  | .bnetWdoneArrive die src => Sys2Proof.Machine.execBnetWdoneArrive die src s
  | .trailingRelease die phys => Sys2Proof.Machine.execTrailingRelease die phys s
  | .unschedSliceAccess die phys slice => Sys2Proof.Machine.execUnschedSliceAccess die phys slice s
  | .epochFlip die => Sys2Proof.Machine.execEpochFlip die s
  | .epochDrained die => Sys2Proof.Machine.execEpochDrained die s
  | .epochDrainTimeout die => Sys2Proof.Machine.execEpochDrainTimeout die s
  | .spadPwrWrite a die cluster slice value => Sys2Proof.Machine.execSpadPwrWrite a die cluster slice value s
  | .drainProbeArrive die phys slice src => Sys2Proof.Machine.execDrainProbeArrive die phys slice src s
  | .sliceDrainComplete die phys slice => Sys2Proof.Machine.execSliceDrainComplete die phys slice s
  | .sliceDrainTimeout die phys slice => Sys2Proof.Machine.execSliceDrainTimeout die phys slice s
  | .sliceCloseDone die phys slice => Sys2Proof.Machine.execSliceCloseDone die phys slice s
  | .sliceOpenDone die phys slice => Sys2Proof.Machine.execSliceOpenDone die phys slice s
  | .scrubRead die phys slice => Sys2Proof.Machine.execScrubRead die phys slice s
  | .scrubWriteback die phys slice => Sys2Proof.Machine.execScrubWriteback die phys slice s
  | .bnetEwdataHiWrite a die cluster value => Sys2Proof.Machine.execBnetEwdataHiWrite a die cluster value s
  | .bnetRtdataWrite a die cluster value => Sys2Proof.Machine.execBnetRtdataWrite a die cluster value s
  | .seqWinWrite a die cluster w value => Sys2Proof.Machine.execSeqWinWrite a die cluster w value s
  | .tenApLocWrite a die value => Sys2Proof.Machine.execTenApLocWrite a die value s
  | .tenApSizeWrite a die value => Sys2Proof.Machine.execTenApSizeWrite a die value s
  | .ethCtlModeWrite a value => Sys2Proof.Machine.execEthCtlModeWrite a value s
  | .clkGovWrite a die value => Sys2Proof.Machine.execClkGovWrite a die value s
  | .lnkCtlRetrain a die link => Sys2Proof.Machine.execLnkCtlRetrain a die link s
  | .lnkCtlEn a die link en => Sys2Proof.Machine.execLnkCtlEn a die link en s
  | .snetFopSet a die cluster flag owner => Sys2Proof.Machine.execSnetFopSet a die cluster flag owner s
  | .snetFopClr a die cluster flag owner => Sys2Proof.Machine.execSnetFopClr a die cluster flag owner s
  | .snetFopCnt a die cluster flag owner => Sys2Proof.Machine.execSnetFopCnt a die cluster flag owner s
  | .registerWrite a addr len value => Sys2Proof.Machine.execRegisterWrite a addr len value s
  | .readClear a addr len => Sys2Proof.Machine.execReadClear a addr len s
  | .timeSidLoRead a die => Sys2Proof.Machine.execTimeSidLoRead a die s
  | .timeTBeatLoRead a die => Sys2Proof.Machine.execTimeTBeatLoRead a die s
  | .mxaColsLoRead a die cluster arr => Sys2Proof.Machine.execMxaColsLoRead a die cluster arr s
  | .bnetEwdataLoRead a die cluster => Sys2Proof.Machine.execBnetEwdataLoRead a die cluster s
  | .bnetSflitLoRead a die cluster => Sys2Proof.Machine.execBnetSflitLoRead a die cluster s
  | .lnkPserLoRead a die link => Sys2Proof.Machine.execLnkPserLoRead a die link s
  | .tenObsS0LoRead a die => Sys2Proof.Machine.execTenObsS0LoRead a die s
  | .pwrEnergyLoRead a die => Sys2Proof.Machine.execPwrEnergyLoRead a die s
  | .kprMdataRead a die => Sys2Proof.Machine.execKprMdataRead a die s
  | .fltRecRead a die => Sys2Proof.Machine.execFltRecRead a die s
  | .fltTRunRead a die => Sys2Proof.Machine.execFltTRunRead a die s
  | .hostDwinWrite a die cluster offset data => Sys2Proof.Machine.execHostDwinWrite a die cluster offset data s
  | .hostDwinRead a die cluster offset len => Sys2Proof.Machine.execHostDwinRead a die cluster offset len s
  | .octPacketReceive p => Sys2Proof.Machine.execOctPacketReceive p s
  | .octRetransmit tenant seq => Sys2Proof.Machine.execOctRetransmit tenant seq s
  | .octWriteComplete tenant => Sys2Proof.Machine.execOctWriteComplete tenant s
  | .octReadComplete tenant => Sys2Proof.Machine.execOctReadComplete tenant s
  | .scaleoutEgress die => Sys2Proof.Machine.execScaleoutEgress die s
  | .scaleoutReceive tenant d data => Sys2Proof.Machine.execScaleoutReceive tenant d data s
  | .peerHaltReceive tenant slot board exp status => Sys2Proof.Machine.execPeerHaltReceive tenant slot board exp status s
  | .ethLinkDown half => Sys2Proof.Machine.execEthLinkDown half s
  | .ethRetrainDone upA upB => Sys2Proof.Machine.execEthRetrainDone upA upB s
  | .idleEnterPoised => Sys2Proof.Machine.execIdleEnterPoised s
  | .idleEnterRetained => Sys2Proof.Machine.execIdleEnterRetained s
  | .wakeExit => Sys2Proof.Machine.execWakeExit s
  | .exitComplete ns => Sys2Proof.Machine.execExitComplete ns s
  | .sparingOccult die phys trigger => Sys2Proof.Machine.execSparingOccult die phys trigger s
  | .routerOut die phys trigger => Sys2Proof.Machine.execRouterOut die phys trigger s
  | .obsSlotStart => Sys2Proof.Machine.execObsSlotStart s
  | .scheduleEffect => Sys2Proof.Machine.execScheduleEffect s
  | .almanacWatchdog => Sys2Proof.Machine.execAlmanacWatchdog s
  | .meridianWatchdog => Sys2Proof.Machine.execMeridianWatchdog s
  | .pwrgdFall => Sys2Proof.Machine.execPwrgdFall s
  | .resetAssert => Sys2Proof.Machine.execResetAssert s
  | .resetRelease straps => Sys2Proof.Machine.execResetRelease straps s
  | .refAonLoss => Sys2Proof.Machine.execRefAonLoss s
  | .refEthLoss => Sys2Proof.Machine.execRefEthLoss s
  | .refUlbLoss die => Sys2Proof.Machine.execRefUlbLoss die s
  | .portModeSearch => Sys2Proof.Machine.execPortModeSearch s
  | .bootreqTimeout => Sys2Proof.Machine.execBootreqTimeout s
  | .bootObjectReceive o => Sys2Proof.Machine.execBootObjectReceive o s
  | .selfTestComplete findings die1Ok railsOk => Sys2Proof.Machine.execSelfTestComplete findings die1Ok railsOk s
  | .tapReset => Sys2Proof.Machine.execTapReset s
  | .idcode => Sys2Proof.Machine.execIdcode s
  | .samplePreload => Sys2Proof.Machine.execSamplePreload s
  | .extest => Sys2Proof.Machine.execExtest s
  | .clamp => Sys2Proof.Machine.execClamp s
  | .highz => Sys2Proof.Machine.execHighz s
  | .extestPulse => Sys2Proof.Machine.execExtestPulse s
  | .extestTrain => Sys2Proof.Machine.execExtestTrain s
  | .bypass => Sys2Proof.Machine.execBypass s
  | .siderealCounterAdvance => Sys2Proof.Machine.execSiderealCounterAdvance s
  | .linkFrameSend die link => Sys2Proof.Machine.execLinkFrameSend die link s
  | .linkSignalRetry die link => Sys2Proof.Machine.execLinkSignalRetry die link s
  | .linkTransmitterRestart die link => Sys2Proof.Machine.execLinkTransmitterRestart die link s
  | .entryComplete => Sys2Proof.Machine.execEntryComplete s
  | .emergencyEnd => Sys2Proof.Machine.execEmergencyEnd s
  | .vddAonLoss => Sys2Proof.Machine.execVddAonLoss s
  | .pwrgdRise straps => Sys2Proof.Machine.execPwrgdRise straps s
  | .refEthReturn => Sys2Proof.Machine.execRefEthReturn s
  | .managementCoreException => Sys2Proof.Machine.execManagementCoreException s
  | .arpNdEchoFrame frame => Sys2Proof.Machine.execArpNdEchoFrame frame s

end Sys2Proof.Machine
end

