-- ==== Sys2Proof/Laws/Tab.lean ====
section
/-!
SUPPORT. The laws of sparse tables: what a read gives after a write, and that every operation keeps the canonical form.
-/

namespace Sys2Proof.Machine

variable {α : Type}

theorem Tab.get_insert_self (d : α) (t : Tab α) (i : Nat) (v : α) : Tab.get d (Tab.insert t i v) i = v := by
  induction t with
  | nil => simp [Tab.insert, Tab.get]
  | cons e t ih =>
    obtain ⟨k, w⟩ := e
    simp only [Tab.insert]
    split
    · simp [Tab.get]
    · split
      · simp [Tab.get]
      · simp_all [Tab.get]

theorem Tab.get_insert_ne (d : α) (t : Tab α) {i j : Nat} (v : α) (h : j ≠ i) :
    Tab.get d (Tab.insert t i v) j = Tab.get d t j := by
  induction t with
  | nil => simp [Tab.insert, Tab.get, h]
  | cons e t ih =>
    obtain ⟨k, w⟩ := e
    simp only [Tab.insert]
    split
    · simp [Tab.get, h]
    · split
      · subst_vars; simp [Tab.get, h]
      · simp only [Tab.get, ih]

theorem Tab.get_erase_self (d : α) (t : Tab α) (i : Nat) : Tab.get d (Tab.erase t i) i = d := by
  induction t with
  | nil => rfl
  | cons e t ih =>
    obtain ⟨k, w⟩ := e
    simp only [Tab.erase]
    split
    · exact ih
    · simp_all [Tab.get]

theorem Tab.get_erase_ne (d : α) (t : Tab α) {i j : Nat} (h : j ≠ i) : Tab.get d (Tab.erase t i) j = Tab.get d t j := by
  induction t with
  | nil => rfl
  | cons e t ih =>
    obtain ⟨k, w⟩ := e
    simp only [Tab.erase]
    split
    · subst_vars; simp [Tab.get, h, ih]
    · simp only [Tab.get, ih]

/-- A key reads as what was last written there. -/
@[simp] theorem Tab.get_set_self [DecidableEq α] (d : α) (t : Tab α) (i : Nat) (v : α) :
    Tab.get d (Tab.set d t i v) i = v := by
  unfold Tab.set
  split
  · subst_vars; exact Tab.get_erase_self _ _ _
  · exact Tab.get_insert_self _ _ _ _

/-- A write leaves every other key alone. -/
theorem Tab.get_set_ne [DecidableEq α] (d : α) (t : Tab α) {i j : Nat} (v : α) (h : j ≠ i) :
    Tab.get d (Tab.set d t i v) j = Tab.get d t j := by
  unfold Tab.set
  split
  · exact Tab.get_erase_ne _ _ h
  · exact Tab.get_insert_ne _ _ _ h

theorem Tab.get_set [DecidableEq α] (d : α) (t : Tab α) (i j : Nat) (v : α) :
    Tab.get d (Tab.set d t i v) j = if j = i then v else Tab.get d t j := by
  by_cases h : j = i
  · subst h; simp
  · simp [h, Tab.get_set_ne d t v h]

theorem Tab.get_modify [DecidableEq α] (d : α) (t : Tab α) (i j : Nat) (f : α → α) :
    Tab.get d (Tab.modify d t i f) j = if j = i then f (Tab.get d t i) else Tab.get d t j :=
  Tab.get_set d t i j _

/-- A run of writes gives each key of the run its value and leaves the rest alone. -/
theorem Tab.get_setRun [DecidableEq α] (d : α) (vs : List α) : ∀ (t : Tab α) (i j : Nat),
    Tab.get d (Tab.setRun d t i vs) j = if i ≤ j then vs.getD (j - i) (Tab.get d t j) else Tab.get d t j := by
  induction vs with
  | nil => intro t i j; simp [Tab.setRun]
  | cons v vs ih =>
    intro t i j
    simp only [Tab.setRun, ih, Tab.get_set]
    by_cases h : i ≤ j
    · by_cases e : j = i
      · subst e; simp [show ¬ j + 1 ≤ j by omega]
      · have e' : i + 1 ≤ j := by omega
        have q : j - i = (j - (i + 1)) + 1 := by omega
        simp [h, e, e', q]
    · have e : j ≠ i := by omega
      have e' : ¬ i + 1 ≤ j := by omega
      simp [h, e, e']

/-- A run of reads gives what the keys hold. -/
theorem Tab.getRun_length (d : α) (t : Tab α) (i n : Nat) : (Tab.getRun d t i n).length = n := by
  simp [Tab.getRun]

/-! The canonical form. -/

/-- Every key of a table lies above a bound. -/
def Tab.above (i : Nat) (t : Tab α) : Prop := ∀ e ∈ t, i < e.1

theorem Tab.rising_cons (k : Nat) (v : α) (t : Tab α) :
    Tab.rising ((k, v) :: t) = true ↔ Tab.above k t ∧ Tab.rising t = true := by
  induction t generalizing k v with
  | nil => simp [Tab.rising, Tab.above]
  | cons e t ih =>
    obtain ⟨k', w⟩ := e
    simp only [Tab.rising, Bool.and_eq_true, decide_eq_true_eq, ih]
    constructor
    · rintro ⟨h, a, r⟩
      refine ⟨?_, a, r⟩
      intro x hx
      rcases List.mem_cons.mp hx with rfl | hx
      · exact h
      · exact Nat.lt_trans h (a x hx)
    · rintro ⟨h, a, r⟩
      exact ⟨h _ (List.mem_cons_self ..), a, r⟩

theorem Tab.mem_insert (t : Tab α) (i : Nat) (v : α) (e : Nat × α) (h : e ∈ Tab.insert t i v) : e = (i, v) ∨ e ∈ t := by
  induction t with
  | nil => simpa [Tab.insert] using h
  | cons x t ih =>
    obtain ⟨k, w⟩ := x
    simp only [Tab.insert] at h
    split at h
    · simpa using h
    · split at h
      · rcases List.mem_cons.mp h with h | h
        · exact .inl h
        · exact .inr (List.mem_cons_of_mem _ h)
      · rcases List.mem_cons.mp h with h | h
        · exact .inr (by simp [h])
        · exact (ih h).imp id (List.mem_cons_of_mem _)

theorem Tab.mem_erase (t : Tab α) (i : Nat) (e : Nat × α) (h : e ∈ Tab.erase t i) : e ∈ t := by
  induction t with
  | nil => exact h
  | cons x t ih =>
    obtain ⟨k, w⟩ := x
    simp only [Tab.erase] at h
    split at h
    · exact List.mem_cons_of_mem _ (ih h)
    · rcases List.mem_cons.mp h with h | h
      · simp [h]
      · exact List.mem_cons_of_mem _ (ih h)

theorem Tab.rising_insert (t : Tab α) (i : Nat) (v : α) (h : Tab.rising t = true) : Tab.rising (Tab.insert t i v) = true := by
  induction t with
  | nil => rfl
  | cons x t ih =>
    obtain ⟨k, w⟩ := x
    obtain ⟨a, r⟩ := (Tab.rising_cons ..).mp h
    simp only [Tab.insert]
    split
    · rename_i lt
      refine (Tab.rising_cons ..).mpr ⟨?_, h⟩
      intro e he
      rcases List.mem_cons.mp he with rfl | he
      · exact lt
      · exact Nat.lt_trans lt (a e he)
    · split
      · rename_i eq
        exact (Tab.rising_cons ..).mpr ⟨eq ▸ a, r⟩
      · rename_i n1 n2
        refine (Tab.rising_cons ..).mpr ⟨?_, ih r⟩
        intro e he
        rcases Tab.mem_insert _ _ _ _ he with rfl | he
        · show k < i; omega
        · exact a e he

theorem Tab.rising_erase (t : Tab α) (i : Nat) (h : Tab.rising t = true) : Tab.rising (Tab.erase t i) = true := by
  induction t with
  | nil => rfl
  | cons x t ih =>
    obtain ⟨k, w⟩ := x
    obtain ⟨a, r⟩ := (Tab.rising_cons ..).mp h
    simp only [Tab.erase]
    split
    · exact ih r
    · exact (Tab.rising_cons ..).mpr ⟨fun e he => a e (Tab.mem_erase _ _ _ he), ih r⟩

theorem Tab.rising_filter (t : Tab α) (p : Nat × α → Bool) (h : Tab.rising t = true) : Tab.rising (t.filter p) = true := by
  induction t with
  | nil => rfl
  | cons x t ih =>
    obtain ⟨k, w⟩ := x
    obtain ⟨a, r⟩ := (Tab.rising_cons ..).mp h
    simp only [List.filter_cons]
    split
    · exact (Tab.rising_cons ..).mpr ⟨fun e he => a e (List.mem_filter.mp he).1, ih r⟩
    · exact ih r

theorem Tab.wf_iff [DecidableEq α] (d : α) (t : Tab α) :
    Tab.wf d t = true ↔ Tab.rising t = true ∧ ∀ e ∈ t, e.2 ≠ d := by
  simp [Tab.wf, List.all_eq_true]

theorem Tab.wf_nil [DecidableEq α] (d : α) : Tab.wf d ([] : Tab α) = true := rfl

/-- A write keeps the canonical form. -/
theorem Tab.wf_set [DecidableEq α] (d : α) (t : Tab α) (i : Nat) (v : α) (h : Tab.wf d t = true) :
    Tab.wf d (Tab.set d t i v) = true := by
  obtain ⟨r, n⟩ := (Tab.wf_iff ..).mp h
  refine (Tab.wf_iff ..).mpr ?_
  unfold Tab.set
  split
  · exact ⟨Tab.rising_erase _ _ r, fun e he => n e (Tab.mem_erase _ _ _ he)⟩
  · rename_i hv
    refine ⟨Tab.rising_insert _ _ _ r, fun e he => ?_⟩
    rcases Tab.mem_insert _ _ _ _ he with rfl | he
    · exact hv
    · exact n e he

theorem Tab.wf_modify [DecidableEq α] (d : α) (t : Tab α) (i : Nat) (f : α → α) (h : Tab.wf d t = true) :
    Tab.wf d (Tab.modify d t i f) = true := Tab.wf_set _ _ _ _ h

theorem Tab.wf_setRun [DecidableEq α] (d : α) (vs : List α) : ∀ (t : Tab α) (i : Nat), Tab.wf d t = true →
    Tab.wf d (Tab.setRun d t i vs) = true := by
  induction vs with
  | nil => intro t i h; exact h
  | cons v vs ih => intro t i h; exact ih _ _ (Tab.wf_set _ _ _ _ h)

theorem Tab.wf_filter [DecidableEq α] (d : α) (t : Tab α) (p : Nat × α → Bool) (h : Tab.wf d t = true) :
    Tab.wf d (t.filter p) = true := by
  obtain ⟨r, n⟩ := (Tab.wf_iff ..).mp h
  exact (Tab.wf_iff ..).mpr ⟨Tab.rising_filter _ _ r, fun e he => n e (List.mem_filter.mp he).1⟩

theorem Tab.wf_clearRange [DecidableEq α] (d : α) (t : Tab α) (lo hi : Nat) (h : Tab.wf d t = true) :
    Tab.wf d (Tab.clearRange t lo hi) = true := Tab.wf_filter _ _ _ h

theorem Tab.wf_erase [DecidableEq α] (d : α) (t : Tab α) (i : Nat) (h : Tab.wf d t = true) :
    Tab.wf d (Tab.erase t i) = true := by
  obtain ⟨r, n⟩ := (Tab.wf_iff ..).mp h
  exact (Tab.wf_iff ..).mpr ⟨Tab.rising_erase _ _ r, fun e he => n e (Tab.mem_erase _ _ _ he)⟩

theorem Tab.wf_putAll [DecidableEq α] (d : α) (es : List (Nat × α)) : ∀ t : Tab α, Tab.wf d t = true →
    Tab.wf d (Tab.putAll d t es) = true := by
  induction es with
  | nil => intro t h; exact h
  | cons e es ih => intro t h; exact ih _ (Tab.wf_set _ _ _ _ h)

/-- Two tables in canonical form that read alike at every key are equal: equal memories are equal data. -/
theorem Tab.ext_of_wf [DecidableEq α] (d : α) : ∀ (t u : Tab α), Tab.wf d t = true → Tab.wf d u = true →
    (∀ i, Tab.get d t i = Tab.get d u i) → t = u := by
  have low : ∀ (t : Tab α) (k : Nat), Tab.above k t → ∀ i, i ≤ k → Tab.get d t i = d := by
    intro t
    induction t with
    | nil => intros; rfl
    | cons e t ih =>
      obtain ⟨k', w⟩ := e
      intro k a i hi
      have : i ≠ k' := by have := a (k', w) (List.mem_cons_self ..); simp at this; omega
      simp only [Tab.get, this, if_false]
      exact ih k (fun e he => a e (List.mem_cons_of_mem _ he)) i hi
  intro t
  induction t with
  | nil =>
    intro u _ hu h
    cases u with
    | nil => rfl
    | cons e u =>
      obtain ⟨k, w⟩ := e
      have := h k
      simp [Tab.get] at this
      exact absurd this.symm ((Tab.wf_iff ..).mp hu |>.2 (k, w) (List.mem_cons_self ..))
  | cons e t ih =>
    obtain ⟨k, v⟩ := e
    intro u ht hu h
    obtain ⟨rt, nt⟩ := (Tab.wf_iff ..).mp ht
    obtain ⟨at_, rt'⟩ := (Tab.rising_cons ..).mp rt
    cases u with
    | nil =>
      have := h k
      simp [Tab.get] at this
      exact absurd this (nt (k, v) (List.mem_cons_self ..))
    | cons e u =>
      obtain ⟨k', w⟩ := e
      obtain ⟨ru, nu⟩ := (Tab.wf_iff ..).mp hu
      obtain ⟨au, ru'⟩ := (Tab.rising_cons ..).mp ru
      have nv : v ≠ d := nt (k, v) (List.mem_cons_self ..)
      have nw : w ≠ d := nu (k', w) (List.mem_cons_self ..)
      have hk : k = k' := by
        rcases Nat.lt_trichotomy k k' with lt | eq | gt
        · have q := h k
          have : k ≠ k' := by omega
          simp [Tab.get, this, low u k' au k (by omega)] at q
          exact absurd q nv
        · exact eq
        · have q := h k'
          have : k' ≠ k := by omega
          simp [Tab.get, this, low t k at_ k' (by omega)] at q
          exact absurd q.symm nw
      subst hk
      have hv : v = w := by simpa [Tab.get] using h k
      subst hv
      have : t = u := by
        refine ih u ((Tab.wf_iff ..).mpr ⟨rt', fun e he => nt e (List.mem_cons_of_mem _ he)⟩)
          ((Tab.wf_iff ..).mpr ⟨ru', fun e he => nu e (List.mem_cons_of_mem _ he)⟩) ?_
        intro i
        have q := h i
        by_cases hi : i = k
        · subst hi; rw [low t i at_ i (Nat.le_refl _), low u i au i (Nat.le_refl _)]
        · simpa [Tab.get, hi] using q
      rw [this]

end Sys2Proof.Machine
end

