-- ==== Sys2Proof/Laws/State.lean ====
section
/-!
SUPPORT. One lemma per field per update of State and of a cluster, and what each reader gives after each writer, so that
no proof unfolds a record update.
-/

namespace Sys2Proof.Machine

/-! `setCluster`. -/

@[simp] theorem State.setCluster_part (s : State) (d p : Nat) (c : Cluster) : (s.setCluster d p c).part = s.part := rfl
@[simp] theorem State.setCluster_pins (s : State) (d p : Nat) (c : Cluster) : (s.setCluster d p c).pins = s.pins := rfl
@[simp] theorem State.setCluster_tap (s : State) (d p : Nat) (c : Cluster) : (s.setCluster d p c).tap = s.tap := rfl
@[simp] theorem State.setCluster_boot (s : State) (d p : Nat) (c : Cluster) : (s.setCluster d p c).boot = s.boot := rfl
@[simp] theorem State.setCluster_regs (s : State) (d p : Nat) (c : Cluster) : (s.setCluster d p c).regs = s.regs := rfl
@[simp] theorem State.setCluster_sel (s : State) (d p : Nat) (c : Cluster) : (s.setCluster d p c).sel = s.sel := rfl
@[simp] theorem State.setCluster_latch (s : State) (d p : Nat) (c : Cluster) : (s.setCluster d p c).latch = s.latch := rfl
@[simp] theorem State.setCluster_recent (s : State) (d p : Nat) (c : Cluster) : (s.setCluster d p c).recent = s.recent := rfl
@[simp] theorem State.setCluster_clock (s : State) (d p : Nat) (c : Cluster) : (s.setCluster d p c).clock = s.clock := rfl
@[simp] theorem State.setCluster_routers (s : State) (d p : Nat) (c : Cluster) : (s.setCluster d p c).routers = s.routers := rfl
@[simp] theorem State.setCluster_barriers (s : State) (d p : Nat) (c : Cluster) : (s.setCluster d p c).barriers = s.barriers := rfl
@[simp] theorem State.setCluster_die0 (s : State) (d p : Nat) (c : Cluster) : (s.setCluster d p c).die0 = s.die0 := rfl
@[simp] theorem State.setCluster_die1 (s : State) (d p : Nat) (c : Cluster) : (s.setCluster d p c).die1 = s.die1 := rfl
@[simp] theorem State.setCluster_sparing (s : State) (d p : Nat) (c : Cluster) : (s.setCluster d p c).sparing = s.sparing := rfl
@[simp] theorem State.setCluster_regions (s : State) (d p : Nat) (c : Cluster) : (s.setCluster d p c).regions = s.regions := rfl
@[simp] theorem State.setCluster_links (s : State) (d p : Nat) (c : Cluster) : (s.setCluster d p c).links = s.links := rfl
@[simp] theorem State.setCluster_eth (s : State) (d p : Nat) (c : Cluster) : (s.setCluster d p c).eth = s.eth := rfl
@[simp] theorem State.setCluster_tenants (s : State) (d p : Nat) (c : Cluster) : (s.setCluster d p c).tenants = s.tenants := rfl
@[simp] theorem State.setCluster_sched (s : State) (d p : Nat) (c : Cluster) : (s.setCluster d p c).sched = s.sched := rfl
@[simp] theorem State.setCluster_nextSched (s : State) (d p : Nat) (c : Cluster) : (s.setCluster d p c).nextSched = s.nextSched := rfl
@[simp] theorem State.setCluster_slotNow (s : State) (d p : Nat) (c : Cluster) : (s.setCluster d p c).slotNow = s.slotNow := rfl
@[simp] theorem State.setCluster_board (s : State) (d p : Nat) (c : Cluster) : (s.setCluster d p c).board = s.board := rfl
@[simp] theorem State.setCluster_sys (s : State) (d p : Nat) (c : Cluster) : (s.setCluster d p c).sys = s.sys := rfl
@[simp] theorem State.setCluster_power (s : State) (d p : Nat) (c : Cluster) : (s.setCluster d p c).power = s.power := rfl
@[simp] theorem State.setCluster_flt0 (s : State) (d p : Nat) (c : Cluster) : (s.setCluster d p c).flt0 = s.flt0 := rfl
@[simp] theorem State.setCluster_flt1 (s : State) (d p : Nat) (c : Cluster) : (s.setCluster d p c).flt1 = s.flt1 := rfl
@[simp] theorem State.setCluster_fw (s : State) (d p : Nat) (c : Cluster) : (s.setCluster d p c).fw = s.fw := rfl
@[simp] theorem State.setCluster_reply (s : State) (d p : Nat) (c : Cluster) : (s.setCluster d p c).reply = s.reply := rfl
@[simp] theorem State.setCluster_fresh (s : State) (d p : Nat) (c : Cluster) : (s.setCluster d p c).fresh = s.fresh := rfl
@[simp] theorem State.setCluster_pending (s : State) (d p : Nat) (c : Cluster) : (s.setCluster d p c).pending = s.pending := rfl

/-! `setRouter`. -/

@[simp] theorem State.setRouter_part (s : State) (d p : Nat) (r : Router) : (s.setRouter d p r).part = s.part := rfl
@[simp] theorem State.setRouter_pins (s : State) (d p : Nat) (r : Router) : (s.setRouter d p r).pins = s.pins := rfl
@[simp] theorem State.setRouter_tap (s : State) (d p : Nat) (r : Router) : (s.setRouter d p r).tap = s.tap := rfl
@[simp] theorem State.setRouter_boot (s : State) (d p : Nat) (r : Router) : (s.setRouter d p r).boot = s.boot := rfl
@[simp] theorem State.setRouter_regs (s : State) (d p : Nat) (r : Router) : (s.setRouter d p r).regs = s.regs := rfl
@[simp] theorem State.setRouter_sel (s : State) (d p : Nat) (r : Router) : (s.setRouter d p r).sel = s.sel := rfl
@[simp] theorem State.setRouter_latch (s : State) (d p : Nat) (r : Router) : (s.setRouter d p r).latch = s.latch := rfl
@[simp] theorem State.setRouter_recent (s : State) (d p : Nat) (r : Router) : (s.setRouter d p r).recent = s.recent := rfl
@[simp] theorem State.setRouter_clock (s : State) (d p : Nat) (r : Router) : (s.setRouter d p r).clock = s.clock := rfl
@[simp] theorem State.setRouter_clusters (s : State) (d p : Nat) (r : Router) : (s.setRouter d p r).clusters = s.clusters := rfl
@[simp] theorem State.setRouter_barriers (s : State) (d p : Nat) (r : Router) : (s.setRouter d p r).barriers = s.barriers := rfl
@[simp] theorem State.setRouter_die0 (s : State) (d p : Nat) (r : Router) : (s.setRouter d p r).die0 = s.die0 := rfl
@[simp] theorem State.setRouter_die1 (s : State) (d p : Nat) (r : Router) : (s.setRouter d p r).die1 = s.die1 := rfl
@[simp] theorem State.setRouter_sparing (s : State) (d p : Nat) (r : Router) : (s.setRouter d p r).sparing = s.sparing := rfl
@[simp] theorem State.setRouter_regions (s : State) (d p : Nat) (r : Router) : (s.setRouter d p r).regions = s.regions := rfl
@[simp] theorem State.setRouter_links (s : State) (d p : Nat) (r : Router) : (s.setRouter d p r).links = s.links := rfl
@[simp] theorem State.setRouter_eth (s : State) (d p : Nat) (r : Router) : (s.setRouter d p r).eth = s.eth := rfl
@[simp] theorem State.setRouter_tenants (s : State) (d p : Nat) (r : Router) : (s.setRouter d p r).tenants = s.tenants := rfl
@[simp] theorem State.setRouter_sched (s : State) (d p : Nat) (r : Router) : (s.setRouter d p r).sched = s.sched := rfl
@[simp] theorem State.setRouter_nextSched (s : State) (d p : Nat) (r : Router) : (s.setRouter d p r).nextSched = s.nextSched := rfl
@[simp] theorem State.setRouter_slotNow (s : State) (d p : Nat) (r : Router) : (s.setRouter d p r).slotNow = s.slotNow := rfl
@[simp] theorem State.setRouter_board (s : State) (d p : Nat) (r : Router) : (s.setRouter d p r).board = s.board := rfl
@[simp] theorem State.setRouter_sys (s : State) (d p : Nat) (r : Router) : (s.setRouter d p r).sys = s.sys := rfl
@[simp] theorem State.setRouter_power (s : State) (d p : Nat) (r : Router) : (s.setRouter d p r).power = s.power := rfl
@[simp] theorem State.setRouter_flt0 (s : State) (d p : Nat) (r : Router) : (s.setRouter d p r).flt0 = s.flt0 := rfl
@[simp] theorem State.setRouter_flt1 (s : State) (d p : Nat) (r : Router) : (s.setRouter d p r).flt1 = s.flt1 := rfl
@[simp] theorem State.setRouter_fw (s : State) (d p : Nat) (r : Router) : (s.setRouter d p r).fw = s.fw := rfl
@[simp] theorem State.setRouter_reply (s : State) (d p : Nat) (r : Router) : (s.setRouter d p r).reply = s.reply := rfl
@[simp] theorem State.setRouter_fresh (s : State) (d p : Nat) (r : Router) : (s.setRouter d p r).fresh = s.fresh := rfl
@[simp] theorem State.setRouter_pending (s : State) (d p : Nat) (r : Router) : (s.setRouter d p r).pending = s.pending := rfl

/-! `setRegion`. -/

@[simp] theorem State.setRegion_part (s : State) (n : Nat) (r : Region) : (s.setRegion n r).part = s.part := rfl
@[simp] theorem State.setRegion_pins (s : State) (n : Nat) (r : Region) : (s.setRegion n r).pins = s.pins := rfl
@[simp] theorem State.setRegion_tap (s : State) (n : Nat) (r : Region) : (s.setRegion n r).tap = s.tap := rfl
@[simp] theorem State.setRegion_boot (s : State) (n : Nat) (r : Region) : (s.setRegion n r).boot = s.boot := rfl
@[simp] theorem State.setRegion_regs (s : State) (n : Nat) (r : Region) : (s.setRegion n r).regs = s.regs := rfl
@[simp] theorem State.setRegion_sel (s : State) (n : Nat) (r : Region) : (s.setRegion n r).sel = s.sel := rfl
@[simp] theorem State.setRegion_latch (s : State) (n : Nat) (r : Region) : (s.setRegion n r).latch = s.latch := rfl
@[simp] theorem State.setRegion_recent (s : State) (n : Nat) (r : Region) : (s.setRegion n r).recent = s.recent := rfl
@[simp] theorem State.setRegion_clock (s : State) (n : Nat) (r : Region) : (s.setRegion n r).clock = s.clock := rfl
@[simp] theorem State.setRegion_clusters (s : State) (n : Nat) (r : Region) : (s.setRegion n r).clusters = s.clusters := rfl
@[simp] theorem State.setRegion_routers (s : State) (n : Nat) (r : Region) : (s.setRegion n r).routers = s.routers := rfl
@[simp] theorem State.setRegion_barriers (s : State) (n : Nat) (r : Region) : (s.setRegion n r).barriers = s.barriers := rfl
@[simp] theorem State.setRegion_die0 (s : State) (n : Nat) (r : Region) : (s.setRegion n r).die0 = s.die0 := rfl
@[simp] theorem State.setRegion_die1 (s : State) (n : Nat) (r : Region) : (s.setRegion n r).die1 = s.die1 := rfl
@[simp] theorem State.setRegion_sparing (s : State) (n : Nat) (r : Region) : (s.setRegion n r).sparing = s.sparing := rfl
@[simp] theorem State.setRegion_links (s : State) (n : Nat) (r : Region) : (s.setRegion n r).links = s.links := rfl
@[simp] theorem State.setRegion_eth (s : State) (n : Nat) (r : Region) : (s.setRegion n r).eth = s.eth := rfl
@[simp] theorem State.setRegion_tenants (s : State) (n : Nat) (r : Region) : (s.setRegion n r).tenants = s.tenants := rfl
@[simp] theorem State.setRegion_sched (s : State) (n : Nat) (r : Region) : (s.setRegion n r).sched = s.sched := rfl
@[simp] theorem State.setRegion_nextSched (s : State) (n : Nat) (r : Region) : (s.setRegion n r).nextSched = s.nextSched := rfl
@[simp] theorem State.setRegion_slotNow (s : State) (n : Nat) (r : Region) : (s.setRegion n r).slotNow = s.slotNow := rfl
@[simp] theorem State.setRegion_board (s : State) (n : Nat) (r : Region) : (s.setRegion n r).board = s.board := rfl
@[simp] theorem State.setRegion_sys (s : State) (n : Nat) (r : Region) : (s.setRegion n r).sys = s.sys := rfl
@[simp] theorem State.setRegion_power (s : State) (n : Nat) (r : Region) : (s.setRegion n r).power = s.power := rfl
@[simp] theorem State.setRegion_flt0 (s : State) (n : Nat) (r : Region) : (s.setRegion n r).flt0 = s.flt0 := rfl
@[simp] theorem State.setRegion_flt1 (s : State) (n : Nat) (r : Region) : (s.setRegion n r).flt1 = s.flt1 := rfl
@[simp] theorem State.setRegion_fw (s : State) (n : Nat) (r : Region) : (s.setRegion n r).fw = s.fw := rfl
@[simp] theorem State.setRegion_reply (s : State) (n : Nat) (r : Region) : (s.setRegion n r).reply = s.reply := rfl
@[simp] theorem State.setRegion_fresh (s : State) (n : Nat) (r : Region) : (s.setRegion n r).fresh = s.fresh := rfl
@[simp] theorem State.setRegion_pending (s : State) (n : Nat) (r : Region) : (s.setRegion n r).pending = s.pending := rfl

/-! `setLink`. -/

@[simp] theorem State.setLink_part (s : State) (d l : Nat) (x : Link) : (s.setLink d l x).part = s.part := rfl
@[simp] theorem State.setLink_pins (s : State) (d l : Nat) (x : Link) : (s.setLink d l x).pins = s.pins := rfl
@[simp] theorem State.setLink_tap (s : State) (d l : Nat) (x : Link) : (s.setLink d l x).tap = s.tap := rfl
@[simp] theorem State.setLink_boot (s : State) (d l : Nat) (x : Link) : (s.setLink d l x).boot = s.boot := rfl
@[simp] theorem State.setLink_regs (s : State) (d l : Nat) (x : Link) : (s.setLink d l x).regs = s.regs := rfl
@[simp] theorem State.setLink_sel (s : State) (d l : Nat) (x : Link) : (s.setLink d l x).sel = s.sel := rfl
@[simp] theorem State.setLink_latch (s : State) (d l : Nat) (x : Link) : (s.setLink d l x).latch = s.latch := rfl
@[simp] theorem State.setLink_recent (s : State) (d l : Nat) (x : Link) : (s.setLink d l x).recent = s.recent := rfl
@[simp] theorem State.setLink_clock (s : State) (d l : Nat) (x : Link) : (s.setLink d l x).clock = s.clock := rfl
@[simp] theorem State.setLink_clusters (s : State) (d l : Nat) (x : Link) : (s.setLink d l x).clusters = s.clusters := rfl
@[simp] theorem State.setLink_routers (s : State) (d l : Nat) (x : Link) : (s.setLink d l x).routers = s.routers := rfl
@[simp] theorem State.setLink_barriers (s : State) (d l : Nat) (x : Link) : (s.setLink d l x).barriers = s.barriers := rfl
@[simp] theorem State.setLink_die0 (s : State) (d l : Nat) (x : Link) : (s.setLink d l x).die0 = s.die0 := rfl
@[simp] theorem State.setLink_die1 (s : State) (d l : Nat) (x : Link) : (s.setLink d l x).die1 = s.die1 := rfl
@[simp] theorem State.setLink_sparing (s : State) (d l : Nat) (x : Link) : (s.setLink d l x).sparing = s.sparing := rfl
@[simp] theorem State.setLink_regions (s : State) (d l : Nat) (x : Link) : (s.setLink d l x).regions = s.regions := rfl
@[simp] theorem State.setLink_eth (s : State) (d l : Nat) (x : Link) : (s.setLink d l x).eth = s.eth := rfl
@[simp] theorem State.setLink_tenants (s : State) (d l : Nat) (x : Link) : (s.setLink d l x).tenants = s.tenants := rfl
@[simp] theorem State.setLink_sched (s : State) (d l : Nat) (x : Link) : (s.setLink d l x).sched = s.sched := rfl
@[simp] theorem State.setLink_nextSched (s : State) (d l : Nat) (x : Link) : (s.setLink d l x).nextSched = s.nextSched := rfl
@[simp] theorem State.setLink_slotNow (s : State) (d l : Nat) (x : Link) : (s.setLink d l x).slotNow = s.slotNow := rfl
@[simp] theorem State.setLink_board (s : State) (d l : Nat) (x : Link) : (s.setLink d l x).board = s.board := rfl
@[simp] theorem State.setLink_sys (s : State) (d l : Nat) (x : Link) : (s.setLink d l x).sys = s.sys := rfl
@[simp] theorem State.setLink_power (s : State) (d l : Nat) (x : Link) : (s.setLink d l x).power = s.power := rfl
@[simp] theorem State.setLink_flt0 (s : State) (d l : Nat) (x : Link) : (s.setLink d l x).flt0 = s.flt0 := rfl
@[simp] theorem State.setLink_flt1 (s : State) (d l : Nat) (x : Link) : (s.setLink d l x).flt1 = s.flt1 := rfl
@[simp] theorem State.setLink_fw (s : State) (d l : Nat) (x : Link) : (s.setLink d l x).fw = s.fw := rfl
@[simp] theorem State.setLink_reply (s : State) (d l : Nat) (x : Link) : (s.setLink d l x).reply = s.reply := rfl
@[simp] theorem State.setLink_fresh (s : State) (d l : Nat) (x : Link) : (s.setLink d l x).fresh = s.fresh := rfl
@[simp] theorem State.setLink_pending (s : State) (d l : Nat) (x : Link) : (s.setLink d l x).pending = s.pending := rfl

/-! `setTenant`. -/

@[simp] theorem State.setTenant_part (s : State) (t : Nat) (x : Tenant) : (s.setTenant t x).part = s.part := rfl
@[simp] theorem State.setTenant_pins (s : State) (t : Nat) (x : Tenant) : (s.setTenant t x).pins = s.pins := rfl
@[simp] theorem State.setTenant_tap (s : State) (t : Nat) (x : Tenant) : (s.setTenant t x).tap = s.tap := rfl
@[simp] theorem State.setTenant_boot (s : State) (t : Nat) (x : Tenant) : (s.setTenant t x).boot = s.boot := rfl
@[simp] theorem State.setTenant_regs (s : State) (t : Nat) (x : Tenant) : (s.setTenant t x).regs = s.regs := rfl
@[simp] theorem State.setTenant_sel (s : State) (t : Nat) (x : Tenant) : (s.setTenant t x).sel = s.sel := rfl
@[simp] theorem State.setTenant_latch (s : State) (t : Nat) (x : Tenant) : (s.setTenant t x).latch = s.latch := rfl
@[simp] theorem State.setTenant_recent (s : State) (t : Nat) (x : Tenant) : (s.setTenant t x).recent = s.recent := rfl
@[simp] theorem State.setTenant_clock (s : State) (t : Nat) (x : Tenant) : (s.setTenant t x).clock = s.clock := rfl
@[simp] theorem State.setTenant_clusters (s : State) (t : Nat) (x : Tenant) : (s.setTenant t x).clusters = s.clusters := rfl
@[simp] theorem State.setTenant_routers (s : State) (t : Nat) (x : Tenant) : (s.setTenant t x).routers = s.routers := rfl
@[simp] theorem State.setTenant_barriers (s : State) (t : Nat) (x : Tenant) : (s.setTenant t x).barriers = s.barriers := rfl
@[simp] theorem State.setTenant_die0 (s : State) (t : Nat) (x : Tenant) : (s.setTenant t x).die0 = s.die0 := rfl
@[simp] theorem State.setTenant_die1 (s : State) (t : Nat) (x : Tenant) : (s.setTenant t x).die1 = s.die1 := rfl
@[simp] theorem State.setTenant_sparing (s : State) (t : Nat) (x : Tenant) : (s.setTenant t x).sparing = s.sparing := rfl
@[simp] theorem State.setTenant_regions (s : State) (t : Nat) (x : Tenant) : (s.setTenant t x).regions = s.regions := rfl
@[simp] theorem State.setTenant_links (s : State) (t : Nat) (x : Tenant) : (s.setTenant t x).links = s.links := rfl
@[simp] theorem State.setTenant_eth (s : State) (t : Nat) (x : Tenant) : (s.setTenant t x).eth = s.eth := rfl
@[simp] theorem State.setTenant_sched (s : State) (t : Nat) (x : Tenant) : (s.setTenant t x).sched = s.sched := rfl
@[simp] theorem State.setTenant_nextSched (s : State) (t : Nat) (x : Tenant) : (s.setTenant t x).nextSched = s.nextSched := rfl
@[simp] theorem State.setTenant_slotNow (s : State) (t : Nat) (x : Tenant) : (s.setTenant t x).slotNow = s.slotNow := rfl
@[simp] theorem State.setTenant_board (s : State) (t : Nat) (x : Tenant) : (s.setTenant t x).board = s.board := rfl
@[simp] theorem State.setTenant_sys (s : State) (t : Nat) (x : Tenant) : (s.setTenant t x).sys = s.sys := rfl
@[simp] theorem State.setTenant_power (s : State) (t : Nat) (x : Tenant) : (s.setTenant t x).power = s.power := rfl
@[simp] theorem State.setTenant_flt0 (s : State) (t : Nat) (x : Tenant) : (s.setTenant t x).flt0 = s.flt0 := rfl
@[simp] theorem State.setTenant_flt1 (s : State) (t : Nat) (x : Tenant) : (s.setTenant t x).flt1 = s.flt1 := rfl
@[simp] theorem State.setTenant_fw (s : State) (t : Nat) (x : Tenant) : (s.setTenant t x).fw = s.fw := rfl
@[simp] theorem State.setTenant_reply (s : State) (t : Nat) (x : Tenant) : (s.setTenant t x).reply = s.reply := rfl
@[simp] theorem State.setTenant_fresh (s : State) (t : Nat) (x : Tenant) : (s.setTenant t x).fresh = s.fresh := rfl
@[simp] theorem State.setTenant_pending (s : State) (t : Nat) (x : Tenant) : (s.setTenant t x).pending = s.pending := rfl

/-! `setReg`. -/

@[simp] theorem State.setReg_part (s : State) (n o : Nat) (r v : Word) : (s.setReg n o r v).part = s.part := rfl
@[simp] theorem State.setReg_pins (s : State) (n o : Nat) (r v : Word) : (s.setReg n o r v).pins = s.pins := rfl
@[simp] theorem State.setReg_tap (s : State) (n o : Nat) (r v : Word) : (s.setReg n o r v).tap = s.tap := rfl
@[simp] theorem State.setReg_boot (s : State) (n o : Nat) (r v : Word) : (s.setReg n o r v).boot = s.boot := rfl
@[simp] theorem State.setReg_sel (s : State) (n o : Nat) (r v : Word) : (s.setReg n o r v).sel = s.sel := rfl
@[simp] theorem State.setReg_latch (s : State) (n o : Nat) (r v : Word) : (s.setReg n o r v).latch = s.latch := rfl
@[simp] theorem State.setReg_recent (s : State) (n o : Nat) (r v : Word) : (s.setReg n o r v).recent = s.recent := rfl
@[simp] theorem State.setReg_clock (s : State) (n o : Nat) (r v : Word) : (s.setReg n o r v).clock = s.clock := rfl
@[simp] theorem State.setReg_clusters (s : State) (n o : Nat) (r v : Word) : (s.setReg n o r v).clusters = s.clusters := rfl
@[simp] theorem State.setReg_routers (s : State) (n o : Nat) (r v : Word) : (s.setReg n o r v).routers = s.routers := rfl
@[simp] theorem State.setReg_barriers (s : State) (n o : Nat) (r v : Word) : (s.setReg n o r v).barriers = s.barriers := rfl
@[simp] theorem State.setReg_die0 (s : State) (n o : Nat) (r v : Word) : (s.setReg n o r v).die0 = s.die0 := rfl
@[simp] theorem State.setReg_die1 (s : State) (n o : Nat) (r v : Word) : (s.setReg n o r v).die1 = s.die1 := rfl
@[simp] theorem State.setReg_sparing (s : State) (n o : Nat) (r v : Word) : (s.setReg n o r v).sparing = s.sparing := rfl
@[simp] theorem State.setReg_regions (s : State) (n o : Nat) (r v : Word) : (s.setReg n o r v).regions = s.regions := rfl
@[simp] theorem State.setReg_links (s : State) (n o : Nat) (r v : Word) : (s.setReg n o r v).links = s.links := rfl
@[simp] theorem State.setReg_eth (s : State) (n o : Nat) (r v : Word) : (s.setReg n o r v).eth = s.eth := rfl
@[simp] theorem State.setReg_tenants (s : State) (n o : Nat) (r v : Word) : (s.setReg n o r v).tenants = s.tenants := rfl
@[simp] theorem State.setReg_sched (s : State) (n o : Nat) (r v : Word) : (s.setReg n o r v).sched = s.sched := rfl
@[simp] theorem State.setReg_nextSched (s : State) (n o : Nat) (r v : Word) : (s.setReg n o r v).nextSched = s.nextSched := rfl
@[simp] theorem State.setReg_slotNow (s : State) (n o : Nat) (r v : Word) : (s.setReg n o r v).slotNow = s.slotNow := rfl
@[simp] theorem State.setReg_board (s : State) (n o : Nat) (r v : Word) : (s.setReg n o r v).board = s.board := rfl
@[simp] theorem State.setReg_sys (s : State) (n o : Nat) (r v : Word) : (s.setReg n o r v).sys = s.sys := rfl
@[simp] theorem State.setReg_power (s : State) (n o : Nat) (r v : Word) : (s.setReg n o r v).power = s.power := rfl
@[simp] theorem State.setReg_flt0 (s : State) (n o : Nat) (r v : Word) : (s.setReg n o r v).flt0 = s.flt0 := rfl
@[simp] theorem State.setReg_flt1 (s : State) (n o : Nat) (r v : Word) : (s.setReg n o r v).flt1 = s.flt1 := rfl
@[simp] theorem State.setReg_fw (s : State) (n o : Nat) (r v : Word) : (s.setReg n o r v).fw = s.fw := rfl
@[simp] theorem State.setReg_reply (s : State) (n o : Nat) (r v : Word) : (s.setReg n o r v).reply = s.reply := rfl
@[simp] theorem State.setReg_fresh (s : State) (n o : Nat) (r v : Word) : (s.setReg n o r v).fresh = s.fresh := rfl
@[simp] theorem State.setReg_pending (s : State) (n o : Nat) (r v : Word) : (s.setReg n o r v).pending = s.pending := rfl

/-! `setDie`. -/

@[simp] theorem State.setDie_part (s : State) (d : Nat) (x : Die) : (s.setDie d x).part = s.part := by unfold State.setDie; split <;> rfl
@[simp] theorem State.setDie_pins (s : State) (d : Nat) (x : Die) : (s.setDie d x).pins = s.pins := by unfold State.setDie; split <;> rfl
@[simp] theorem State.setDie_tap (s : State) (d : Nat) (x : Die) : (s.setDie d x).tap = s.tap := by unfold State.setDie; split <;> rfl
@[simp] theorem State.setDie_boot (s : State) (d : Nat) (x : Die) : (s.setDie d x).boot = s.boot := by unfold State.setDie; split <;> rfl
@[simp] theorem State.setDie_regs (s : State) (d : Nat) (x : Die) : (s.setDie d x).regs = s.regs := by unfold State.setDie; split <;> rfl
@[simp] theorem State.setDie_sel (s : State) (d : Nat) (x : Die) : (s.setDie d x).sel = s.sel := by unfold State.setDie; split <;> rfl
@[simp] theorem State.setDie_latch (s : State) (d : Nat) (x : Die) : (s.setDie d x).latch = s.latch := by unfold State.setDie; split <;> rfl
@[simp] theorem State.setDie_recent (s : State) (d : Nat) (x : Die) : (s.setDie d x).recent = s.recent := by unfold State.setDie; split <;> rfl
@[simp] theorem State.setDie_clock (s : State) (d : Nat) (x : Die) : (s.setDie d x).clock = s.clock := by unfold State.setDie; split <;> rfl
@[simp] theorem State.setDie_clusters (s : State) (d : Nat) (x : Die) : (s.setDie d x).clusters = s.clusters := by unfold State.setDie; split <;> rfl
@[simp] theorem State.setDie_routers (s : State) (d : Nat) (x : Die) : (s.setDie d x).routers = s.routers := by unfold State.setDie; split <;> rfl
@[simp] theorem State.setDie_barriers (s : State) (d : Nat) (x : Die) : (s.setDie d x).barriers = s.barriers := by unfold State.setDie; split <;> rfl
@[simp] theorem State.setDie_sparing (s : State) (d : Nat) (x : Die) : (s.setDie d x).sparing = s.sparing := by unfold State.setDie; split <;> rfl
@[simp] theorem State.setDie_regions (s : State) (d : Nat) (x : Die) : (s.setDie d x).regions = s.regions := by unfold State.setDie; split <;> rfl
@[simp] theorem State.setDie_links (s : State) (d : Nat) (x : Die) : (s.setDie d x).links = s.links := by unfold State.setDie; split <;> rfl
@[simp] theorem State.setDie_eth (s : State) (d : Nat) (x : Die) : (s.setDie d x).eth = s.eth := by unfold State.setDie; split <;> rfl
@[simp] theorem State.setDie_tenants (s : State) (d : Nat) (x : Die) : (s.setDie d x).tenants = s.tenants := by unfold State.setDie; split <;> rfl
@[simp] theorem State.setDie_sched (s : State) (d : Nat) (x : Die) : (s.setDie d x).sched = s.sched := by unfold State.setDie; split <;> rfl
@[simp] theorem State.setDie_nextSched (s : State) (d : Nat) (x : Die) : (s.setDie d x).nextSched = s.nextSched := by unfold State.setDie; split <;> rfl
@[simp] theorem State.setDie_slotNow (s : State) (d : Nat) (x : Die) : (s.setDie d x).slotNow = s.slotNow := by unfold State.setDie; split <;> rfl
@[simp] theorem State.setDie_board (s : State) (d : Nat) (x : Die) : (s.setDie d x).board = s.board := by unfold State.setDie; split <;> rfl
@[simp] theorem State.setDie_sys (s : State) (d : Nat) (x : Die) : (s.setDie d x).sys = s.sys := by unfold State.setDie; split <;> rfl
@[simp] theorem State.setDie_power (s : State) (d : Nat) (x : Die) : (s.setDie d x).power = s.power := by unfold State.setDie; split <;> rfl
@[simp] theorem State.setDie_flt0 (s : State) (d : Nat) (x : Die) : (s.setDie d x).flt0 = s.flt0 := by unfold State.setDie; split <;> rfl
@[simp] theorem State.setDie_flt1 (s : State) (d : Nat) (x : Die) : (s.setDie d x).flt1 = s.flt1 := by unfold State.setDie; split <;> rfl
@[simp] theorem State.setDie_fw (s : State) (d : Nat) (x : Die) : (s.setDie d x).fw = s.fw := by unfold State.setDie; split <;> rfl
@[simp] theorem State.setDie_reply (s : State) (d : Nat) (x : Die) : (s.setDie d x).reply = s.reply := by unfold State.setDie; split <;> rfl
@[simp] theorem State.setDie_fresh (s : State) (d : Nat) (x : Die) : (s.setDie d x).fresh = s.fresh := by unfold State.setDie; split <;> rfl
@[simp] theorem State.setDie_pending (s : State) (d : Nat) (x : Die) : (s.setDie d x).pending = s.pending := by unfold State.setDie; split <;> rfl

/-! `setFlt`. -/

@[simp] theorem State.setFlt_part (s : State) (d : Nat) (x : Flt) : (s.setFlt d x).part = s.part := by unfold State.setFlt; split <;> rfl
@[simp] theorem State.setFlt_pins (s : State) (d : Nat) (x : Flt) : (s.setFlt d x).pins = s.pins := by unfold State.setFlt; split <;> rfl
@[simp] theorem State.setFlt_tap (s : State) (d : Nat) (x : Flt) : (s.setFlt d x).tap = s.tap := by unfold State.setFlt; split <;> rfl
@[simp] theorem State.setFlt_boot (s : State) (d : Nat) (x : Flt) : (s.setFlt d x).boot = s.boot := by unfold State.setFlt; split <;> rfl
@[simp] theorem State.setFlt_regs (s : State) (d : Nat) (x : Flt) : (s.setFlt d x).regs = s.regs := by unfold State.setFlt; split <;> rfl
@[simp] theorem State.setFlt_sel (s : State) (d : Nat) (x : Flt) : (s.setFlt d x).sel = s.sel := by unfold State.setFlt; split <;> rfl
@[simp] theorem State.setFlt_latch (s : State) (d : Nat) (x : Flt) : (s.setFlt d x).latch = s.latch := by unfold State.setFlt; split <;> rfl
@[simp] theorem State.setFlt_recent (s : State) (d : Nat) (x : Flt) : (s.setFlt d x).recent = s.recent := by unfold State.setFlt; split <;> rfl
@[simp] theorem State.setFlt_clock (s : State) (d : Nat) (x : Flt) : (s.setFlt d x).clock = s.clock := by unfold State.setFlt; split <;> rfl
@[simp] theorem State.setFlt_clusters (s : State) (d : Nat) (x : Flt) : (s.setFlt d x).clusters = s.clusters := by unfold State.setFlt; split <;> rfl
@[simp] theorem State.setFlt_routers (s : State) (d : Nat) (x : Flt) : (s.setFlt d x).routers = s.routers := by unfold State.setFlt; split <;> rfl
@[simp] theorem State.setFlt_barriers (s : State) (d : Nat) (x : Flt) : (s.setFlt d x).barriers = s.barriers := by unfold State.setFlt; split <;> rfl
@[simp] theorem State.setFlt_die0 (s : State) (d : Nat) (x : Flt) : (s.setFlt d x).die0 = s.die0 := by unfold State.setFlt; split <;> rfl
@[simp] theorem State.setFlt_die1 (s : State) (d : Nat) (x : Flt) : (s.setFlt d x).die1 = s.die1 := by unfold State.setFlt; split <;> rfl
@[simp] theorem State.setFlt_sparing (s : State) (d : Nat) (x : Flt) : (s.setFlt d x).sparing = s.sparing := by unfold State.setFlt; split <;> rfl
@[simp] theorem State.setFlt_regions (s : State) (d : Nat) (x : Flt) : (s.setFlt d x).regions = s.regions := by unfold State.setFlt; split <;> rfl
@[simp] theorem State.setFlt_links (s : State) (d : Nat) (x : Flt) : (s.setFlt d x).links = s.links := by unfold State.setFlt; split <;> rfl
@[simp] theorem State.setFlt_eth (s : State) (d : Nat) (x : Flt) : (s.setFlt d x).eth = s.eth := by unfold State.setFlt; split <;> rfl
@[simp] theorem State.setFlt_tenants (s : State) (d : Nat) (x : Flt) : (s.setFlt d x).tenants = s.tenants := by unfold State.setFlt; split <;> rfl
@[simp] theorem State.setFlt_sched (s : State) (d : Nat) (x : Flt) : (s.setFlt d x).sched = s.sched := by unfold State.setFlt; split <;> rfl
@[simp] theorem State.setFlt_nextSched (s : State) (d : Nat) (x : Flt) : (s.setFlt d x).nextSched = s.nextSched := by unfold State.setFlt; split <;> rfl
@[simp] theorem State.setFlt_slotNow (s : State) (d : Nat) (x : Flt) : (s.setFlt d x).slotNow = s.slotNow := by unfold State.setFlt; split <;> rfl
@[simp] theorem State.setFlt_board (s : State) (d : Nat) (x : Flt) : (s.setFlt d x).board = s.board := by unfold State.setFlt; split <;> rfl
@[simp] theorem State.setFlt_sys (s : State) (d : Nat) (x : Flt) : (s.setFlt d x).sys = s.sys := by unfold State.setFlt; split <;> rfl
@[simp] theorem State.setFlt_power (s : State) (d : Nat) (x : Flt) : (s.setFlt d x).power = s.power := by unfold State.setFlt; split <;> rfl
@[simp] theorem State.setFlt_fw (s : State) (d : Nat) (x : Flt) : (s.setFlt d x).fw = s.fw := by unfold State.setFlt; split <;> rfl
@[simp] theorem State.setFlt_reply (s : State) (d : Nat) (x : Flt) : (s.setFlt d x).reply = s.reply := by unfold State.setFlt; split <;> rfl
@[simp] theorem State.setFlt_fresh (s : State) (d : Nat) (x : Flt) : (s.setFlt d x).fresh = s.fresh := by unfold State.setFlt; split <;> rfl
@[simp] theorem State.setFlt_pending (s : State) (d : Nat) (x : Flt) : (s.setFlt d x).pending = s.pending := by unfold State.setFlt; split <;> rfl

/-! `modCluster`. -/

@[simp] theorem State.modCluster_part (s : State) (d p : Nat) (f : Cluster → Cluster) : (s.modCluster d p f).part = s.part := rfl
@[simp] theorem State.modCluster_pins (s : State) (d p : Nat) (f : Cluster → Cluster) : (s.modCluster d p f).pins = s.pins := rfl
@[simp] theorem State.modCluster_tap (s : State) (d p : Nat) (f : Cluster → Cluster) : (s.modCluster d p f).tap = s.tap := rfl
@[simp] theorem State.modCluster_boot (s : State) (d p : Nat) (f : Cluster → Cluster) : (s.modCluster d p f).boot = s.boot := rfl
@[simp] theorem State.modCluster_regs (s : State) (d p : Nat) (f : Cluster → Cluster) : (s.modCluster d p f).regs = s.regs := rfl
@[simp] theorem State.modCluster_sel (s : State) (d p : Nat) (f : Cluster → Cluster) : (s.modCluster d p f).sel = s.sel := rfl
@[simp] theorem State.modCluster_latch (s : State) (d p : Nat) (f : Cluster → Cluster) : (s.modCluster d p f).latch = s.latch := rfl
@[simp] theorem State.modCluster_recent (s : State) (d p : Nat) (f : Cluster → Cluster) : (s.modCluster d p f).recent = s.recent := rfl
@[simp] theorem State.modCluster_clock (s : State) (d p : Nat) (f : Cluster → Cluster) : (s.modCluster d p f).clock = s.clock := rfl
@[simp] theorem State.modCluster_routers (s : State) (d p : Nat) (f : Cluster → Cluster) : (s.modCluster d p f).routers = s.routers := rfl
@[simp] theorem State.modCluster_barriers (s : State) (d p : Nat) (f : Cluster → Cluster) : (s.modCluster d p f).barriers = s.barriers := rfl
@[simp] theorem State.modCluster_die0 (s : State) (d p : Nat) (f : Cluster → Cluster) : (s.modCluster d p f).die0 = s.die0 := rfl
@[simp] theorem State.modCluster_die1 (s : State) (d p : Nat) (f : Cluster → Cluster) : (s.modCluster d p f).die1 = s.die1 := rfl
@[simp] theorem State.modCluster_sparing (s : State) (d p : Nat) (f : Cluster → Cluster) : (s.modCluster d p f).sparing = s.sparing := rfl
@[simp] theorem State.modCluster_regions (s : State) (d p : Nat) (f : Cluster → Cluster) : (s.modCluster d p f).regions = s.regions := rfl
@[simp] theorem State.modCluster_links (s : State) (d p : Nat) (f : Cluster → Cluster) : (s.modCluster d p f).links = s.links := rfl
@[simp] theorem State.modCluster_eth (s : State) (d p : Nat) (f : Cluster → Cluster) : (s.modCluster d p f).eth = s.eth := rfl
@[simp] theorem State.modCluster_tenants (s : State) (d p : Nat) (f : Cluster → Cluster) : (s.modCluster d p f).tenants = s.tenants := rfl
@[simp] theorem State.modCluster_sched (s : State) (d p : Nat) (f : Cluster → Cluster) : (s.modCluster d p f).sched = s.sched := rfl
@[simp] theorem State.modCluster_nextSched (s : State) (d p : Nat) (f : Cluster → Cluster) : (s.modCluster d p f).nextSched = s.nextSched := rfl
@[simp] theorem State.modCluster_slotNow (s : State) (d p : Nat) (f : Cluster → Cluster) : (s.modCluster d p f).slotNow = s.slotNow := rfl
@[simp] theorem State.modCluster_board (s : State) (d p : Nat) (f : Cluster → Cluster) : (s.modCluster d p f).board = s.board := rfl
@[simp] theorem State.modCluster_sys (s : State) (d p : Nat) (f : Cluster → Cluster) : (s.modCluster d p f).sys = s.sys := rfl
@[simp] theorem State.modCluster_power (s : State) (d p : Nat) (f : Cluster → Cluster) : (s.modCluster d p f).power = s.power := rfl
@[simp] theorem State.modCluster_flt0 (s : State) (d p : Nat) (f : Cluster → Cluster) : (s.modCluster d p f).flt0 = s.flt0 := rfl
@[simp] theorem State.modCluster_flt1 (s : State) (d p : Nat) (f : Cluster → Cluster) : (s.modCluster d p f).flt1 = s.flt1 := rfl
@[simp] theorem State.modCluster_fw (s : State) (d p : Nat) (f : Cluster → Cluster) : (s.modCluster d p f).fw = s.fw := rfl
@[simp] theorem State.modCluster_reply (s : State) (d p : Nat) (f : Cluster → Cluster) : (s.modCluster d p f).reply = s.reply := rfl
@[simp] theorem State.modCluster_fresh (s : State) (d p : Nat) (f : Cluster → Cluster) : (s.modCluster d p f).fresh = s.fresh := rfl
@[simp] theorem State.modCluster_pending (s : State) (d p : Nat) (f : Cluster → Cluster) : (s.modCluster d p f).pending = s.pending := rfl

/-! `modCtx`. -/

@[simp] theorem State.modCtx_part (s : State) (a : Issue) (f : Ctx → Ctx) : (s.modCtx a f).part = s.part := rfl
@[simp] theorem State.modCtx_pins (s : State) (a : Issue) (f : Ctx → Ctx) : (s.modCtx a f).pins = s.pins := rfl
@[simp] theorem State.modCtx_tap (s : State) (a : Issue) (f : Ctx → Ctx) : (s.modCtx a f).tap = s.tap := rfl
@[simp] theorem State.modCtx_boot (s : State) (a : Issue) (f : Ctx → Ctx) : (s.modCtx a f).boot = s.boot := rfl
@[simp] theorem State.modCtx_regs (s : State) (a : Issue) (f : Ctx → Ctx) : (s.modCtx a f).regs = s.regs := rfl
@[simp] theorem State.modCtx_sel (s : State) (a : Issue) (f : Ctx → Ctx) : (s.modCtx a f).sel = s.sel := rfl
@[simp] theorem State.modCtx_latch (s : State) (a : Issue) (f : Ctx → Ctx) : (s.modCtx a f).latch = s.latch := rfl
@[simp] theorem State.modCtx_recent (s : State) (a : Issue) (f : Ctx → Ctx) : (s.modCtx a f).recent = s.recent := rfl
@[simp] theorem State.modCtx_clock (s : State) (a : Issue) (f : Ctx → Ctx) : (s.modCtx a f).clock = s.clock := rfl
@[simp] theorem State.modCtx_routers (s : State) (a : Issue) (f : Ctx → Ctx) : (s.modCtx a f).routers = s.routers := rfl
@[simp] theorem State.modCtx_barriers (s : State) (a : Issue) (f : Ctx → Ctx) : (s.modCtx a f).barriers = s.barriers := rfl
@[simp] theorem State.modCtx_die0 (s : State) (a : Issue) (f : Ctx → Ctx) : (s.modCtx a f).die0 = s.die0 := rfl
@[simp] theorem State.modCtx_die1 (s : State) (a : Issue) (f : Ctx → Ctx) : (s.modCtx a f).die1 = s.die1 := rfl
@[simp] theorem State.modCtx_sparing (s : State) (a : Issue) (f : Ctx → Ctx) : (s.modCtx a f).sparing = s.sparing := rfl
@[simp] theorem State.modCtx_regions (s : State) (a : Issue) (f : Ctx → Ctx) : (s.modCtx a f).regions = s.regions := rfl
@[simp] theorem State.modCtx_links (s : State) (a : Issue) (f : Ctx → Ctx) : (s.modCtx a f).links = s.links := rfl
@[simp] theorem State.modCtx_eth (s : State) (a : Issue) (f : Ctx → Ctx) : (s.modCtx a f).eth = s.eth := rfl
@[simp] theorem State.modCtx_tenants (s : State) (a : Issue) (f : Ctx → Ctx) : (s.modCtx a f).tenants = s.tenants := rfl
@[simp] theorem State.modCtx_sched (s : State) (a : Issue) (f : Ctx → Ctx) : (s.modCtx a f).sched = s.sched := rfl
@[simp] theorem State.modCtx_nextSched (s : State) (a : Issue) (f : Ctx → Ctx) : (s.modCtx a f).nextSched = s.nextSched := rfl
@[simp] theorem State.modCtx_slotNow (s : State) (a : Issue) (f : Ctx → Ctx) : (s.modCtx a f).slotNow = s.slotNow := rfl
@[simp] theorem State.modCtx_board (s : State) (a : Issue) (f : Ctx → Ctx) : (s.modCtx a f).board = s.board := rfl
@[simp] theorem State.modCtx_sys (s : State) (a : Issue) (f : Ctx → Ctx) : (s.modCtx a f).sys = s.sys := rfl
@[simp] theorem State.modCtx_power (s : State) (a : Issue) (f : Ctx → Ctx) : (s.modCtx a f).power = s.power := rfl
@[simp] theorem State.modCtx_flt0 (s : State) (a : Issue) (f : Ctx → Ctx) : (s.modCtx a f).flt0 = s.flt0 := rfl
@[simp] theorem State.modCtx_flt1 (s : State) (a : Issue) (f : Ctx → Ctx) : (s.modCtx a f).flt1 = s.flt1 := rfl
@[simp] theorem State.modCtx_fw (s : State) (a : Issue) (f : Ctx → Ctx) : (s.modCtx a f).fw = s.fw := rfl
@[simp] theorem State.modCtx_reply (s : State) (a : Issue) (f : Ctx → Ctx) : (s.modCtx a f).reply = s.reply := rfl
@[simp] theorem State.modCtx_fresh (s : State) (a : Issue) (f : Ctx → Ctx) : (s.modCtx a f).fresh = s.fresh := rfl
@[simp] theorem State.modCtx_pending (s : State) (a : Issue) (f : Ctx → Ctx) : (s.modCtx a f).pending = s.pending := rfl

/-! `file`. -/

@[simp] theorem State.file_part (s : State) (a : Issue) (xs : List (Nat × Commit)) : (s.file a xs).part = s.part := rfl
@[simp] theorem State.file_pins (s : State) (a : Issue) (xs : List (Nat × Commit)) : (s.file a xs).pins = s.pins := rfl
@[simp] theorem State.file_tap (s : State) (a : Issue) (xs : List (Nat × Commit)) : (s.file a xs).tap = s.tap := rfl
@[simp] theorem State.file_boot (s : State) (a : Issue) (xs : List (Nat × Commit)) : (s.file a xs).boot = s.boot := rfl
@[simp] theorem State.file_regs (s : State) (a : Issue) (xs : List (Nat × Commit)) : (s.file a xs).regs = s.regs := rfl
@[simp] theorem State.file_sel (s : State) (a : Issue) (xs : List (Nat × Commit)) : (s.file a xs).sel = s.sel := rfl
@[simp] theorem State.file_latch (s : State) (a : Issue) (xs : List (Nat × Commit)) : (s.file a xs).latch = s.latch := rfl
@[simp] theorem State.file_recent (s : State) (a : Issue) (xs : List (Nat × Commit)) : (s.file a xs).recent = s.recent := rfl
@[simp] theorem State.file_clock (s : State) (a : Issue) (xs : List (Nat × Commit)) : (s.file a xs).clock = s.clock := rfl
@[simp] theorem State.file_routers (s : State) (a : Issue) (xs : List (Nat × Commit)) : (s.file a xs).routers = s.routers := rfl
@[simp] theorem State.file_barriers (s : State) (a : Issue) (xs : List (Nat × Commit)) : (s.file a xs).barriers = s.barriers := rfl
@[simp] theorem State.file_die0 (s : State) (a : Issue) (xs : List (Nat × Commit)) : (s.file a xs).die0 = s.die0 := rfl
@[simp] theorem State.file_die1 (s : State) (a : Issue) (xs : List (Nat × Commit)) : (s.file a xs).die1 = s.die1 := rfl
@[simp] theorem State.file_sparing (s : State) (a : Issue) (xs : List (Nat × Commit)) : (s.file a xs).sparing = s.sparing := rfl
@[simp] theorem State.file_regions (s : State) (a : Issue) (xs : List (Nat × Commit)) : (s.file a xs).regions = s.regions := rfl
@[simp] theorem State.file_links (s : State) (a : Issue) (xs : List (Nat × Commit)) : (s.file a xs).links = s.links := rfl
@[simp] theorem State.file_eth (s : State) (a : Issue) (xs : List (Nat × Commit)) : (s.file a xs).eth = s.eth := rfl
@[simp] theorem State.file_tenants (s : State) (a : Issue) (xs : List (Nat × Commit)) : (s.file a xs).tenants = s.tenants := rfl
@[simp] theorem State.file_sched (s : State) (a : Issue) (xs : List (Nat × Commit)) : (s.file a xs).sched = s.sched := rfl
@[simp] theorem State.file_nextSched (s : State) (a : Issue) (xs : List (Nat × Commit)) : (s.file a xs).nextSched = s.nextSched := rfl
@[simp] theorem State.file_slotNow (s : State) (a : Issue) (xs : List (Nat × Commit)) : (s.file a xs).slotNow = s.slotNow := rfl
@[simp] theorem State.file_board (s : State) (a : Issue) (xs : List (Nat × Commit)) : (s.file a xs).board = s.board := rfl
@[simp] theorem State.file_sys (s : State) (a : Issue) (xs : List (Nat × Commit)) : (s.file a xs).sys = s.sys := rfl
@[simp] theorem State.file_power (s : State) (a : Issue) (xs : List (Nat × Commit)) : (s.file a xs).power = s.power := rfl
@[simp] theorem State.file_flt0 (s : State) (a : Issue) (xs : List (Nat × Commit)) : (s.file a xs).flt0 = s.flt0 := rfl
@[simp] theorem State.file_flt1 (s : State) (a : Issue) (xs : List (Nat × Commit)) : (s.file a xs).flt1 = s.flt1 := rfl
@[simp] theorem State.file_fw (s : State) (a : Issue) (xs : List (Nat × Commit)) : (s.file a xs).fw = s.fw := rfl
@[simp] theorem State.file_reply (s : State) (a : Issue) (xs : List (Nat × Commit)) : (s.file a xs).reply = s.reply := rfl
@[simp] theorem State.file_fresh (s : State) (a : Issue) (xs : List (Nat × Commit)) : (s.file a xs).fresh = s.fresh := rfl
@[simp] theorem State.file_pending (s : State) (a : Issue) (xs : List (Nat × Commit)) : (s.file a xs).pending = s.pending := rfl

/-! `usePort`. -/

@[simp] theorem State.usePort_part (s : State) (d p : Nat) (u : Use) : (s.usePort d p u).part = s.part := by unfold State.usePort; split <;> rfl
@[simp] theorem State.usePort_pins (s : State) (d p : Nat) (u : Use) : (s.usePort d p u).pins = s.pins := by unfold State.usePort; split <;> rfl
@[simp] theorem State.usePort_tap (s : State) (d p : Nat) (u : Use) : (s.usePort d p u).tap = s.tap := by unfold State.usePort; split <;> rfl
@[simp] theorem State.usePort_boot (s : State) (d p : Nat) (u : Use) : (s.usePort d p u).boot = s.boot := by unfold State.usePort; split <;> rfl
@[simp] theorem State.usePort_regs (s : State) (d p : Nat) (u : Use) : (s.usePort d p u).regs = s.regs := by unfold State.usePort; split <;> rfl
@[simp] theorem State.usePort_sel (s : State) (d p : Nat) (u : Use) : (s.usePort d p u).sel = s.sel := by unfold State.usePort; split <;> rfl
@[simp] theorem State.usePort_latch (s : State) (d p : Nat) (u : Use) : (s.usePort d p u).latch = s.latch := by unfold State.usePort; split <;> rfl
@[simp] theorem State.usePort_recent (s : State) (d p : Nat) (u : Use) : (s.usePort d p u).recent = s.recent := by unfold State.usePort; split <;> rfl
@[simp] theorem State.usePort_clock (s : State) (d p : Nat) (u : Use) : (s.usePort d p u).clock = s.clock := by unfold State.usePort; split <;> rfl
@[simp] theorem State.usePort_routers (s : State) (d p : Nat) (u : Use) : (s.usePort d p u).routers = s.routers := by unfold State.usePort; split <;> rfl
@[simp] theorem State.usePort_barriers (s : State) (d p : Nat) (u : Use) : (s.usePort d p u).barriers = s.barriers := by unfold State.usePort; split <;> rfl
@[simp] theorem State.usePort_die0 (s : State) (d p : Nat) (u : Use) : (s.usePort d p u).die0 = s.die0 := by unfold State.usePort; split <;> rfl
@[simp] theorem State.usePort_die1 (s : State) (d p : Nat) (u : Use) : (s.usePort d p u).die1 = s.die1 := by unfold State.usePort; split <;> rfl
@[simp] theorem State.usePort_sparing (s : State) (d p : Nat) (u : Use) : (s.usePort d p u).sparing = s.sparing := by unfold State.usePort; split <;> rfl
@[simp] theorem State.usePort_regions (s : State) (d p : Nat) (u : Use) : (s.usePort d p u).regions = s.regions := by unfold State.usePort; split <;> rfl
@[simp] theorem State.usePort_links (s : State) (d p : Nat) (u : Use) : (s.usePort d p u).links = s.links := by unfold State.usePort; split <;> rfl
@[simp] theorem State.usePort_eth (s : State) (d p : Nat) (u : Use) : (s.usePort d p u).eth = s.eth := by unfold State.usePort; split <;> rfl
@[simp] theorem State.usePort_tenants (s : State) (d p : Nat) (u : Use) : (s.usePort d p u).tenants = s.tenants := by unfold State.usePort; split <;> rfl
@[simp] theorem State.usePort_sched (s : State) (d p : Nat) (u : Use) : (s.usePort d p u).sched = s.sched := by unfold State.usePort; split <;> rfl
@[simp] theorem State.usePort_nextSched (s : State) (d p : Nat) (u : Use) : (s.usePort d p u).nextSched = s.nextSched := by unfold State.usePort; split <;> rfl
@[simp] theorem State.usePort_slotNow (s : State) (d p : Nat) (u : Use) : (s.usePort d p u).slotNow = s.slotNow := by unfold State.usePort; split <;> rfl
@[simp] theorem State.usePort_board (s : State) (d p : Nat) (u : Use) : (s.usePort d p u).board = s.board := by unfold State.usePort; split <;> rfl
@[simp] theorem State.usePort_sys (s : State) (d p : Nat) (u : Use) : (s.usePort d p u).sys = s.sys := by unfold State.usePort; split <;> rfl
@[simp] theorem State.usePort_power (s : State) (d p : Nat) (u : Use) : (s.usePort d p u).power = s.power := by unfold State.usePort; split <;> rfl
@[simp] theorem State.usePort_flt0 (s : State) (d p : Nat) (u : Use) : (s.usePort d p u).flt0 = s.flt0 := by unfold State.usePort; split <;> rfl
@[simp] theorem State.usePort_flt1 (s : State) (d p : Nat) (u : Use) : (s.usePort d p u).flt1 = s.flt1 := by unfold State.usePort; split <;> rfl
@[simp] theorem State.usePort_fw (s : State) (d p : Nat) (u : Use) : (s.usePort d p u).fw = s.fw := by unfold State.usePort; split <;> rfl
@[simp] theorem State.usePort_reply (s : State) (d p : Nat) (u : Use) : (s.usePort d p u).reply = s.reply := by unfold State.usePort; split <;> rfl
@[simp] theorem State.usePort_fresh (s : State) (d p : Nat) (u : Use) : (s.usePort d p u).fresh = s.fresh := by unfold State.usePort; split <;> rfl
@[simp] theorem State.usePort_pending (s : State) (d p : Nat) (u : Use) : (s.usePort d p u).pending = s.pending := by unfold State.usePort; split <;> rfl

/-! `useData`. -/

@[simp] theorem State.useData_part (s : State) (a : Issue) (m n : Nat) : (s.useData a m n).part = s.part := rfl
@[simp] theorem State.useData_pins (s : State) (a : Issue) (m n : Nat) : (s.useData a m n).pins = s.pins := rfl
@[simp] theorem State.useData_tap (s : State) (a : Issue) (m n : Nat) : (s.useData a m n).tap = s.tap := rfl
@[simp] theorem State.useData_boot (s : State) (a : Issue) (m n : Nat) : (s.useData a m n).boot = s.boot := rfl
@[simp] theorem State.useData_regs (s : State) (a : Issue) (m n : Nat) : (s.useData a m n).regs = s.regs := rfl
@[simp] theorem State.useData_sel (s : State) (a : Issue) (m n : Nat) : (s.useData a m n).sel = s.sel := rfl
@[simp] theorem State.useData_latch (s : State) (a : Issue) (m n : Nat) : (s.useData a m n).latch = s.latch := rfl
@[simp] theorem State.useData_recent (s : State) (a : Issue) (m n : Nat) : (s.useData a m n).recent = s.recent := rfl
@[simp] theorem State.useData_clock (s : State) (a : Issue) (m n : Nat) : (s.useData a m n).clock = s.clock := rfl
@[simp] theorem State.useData_routers (s : State) (a : Issue) (m n : Nat) : (s.useData a m n).routers = s.routers := rfl
@[simp] theorem State.useData_barriers (s : State) (a : Issue) (m n : Nat) : (s.useData a m n).barriers = s.barriers := rfl
@[simp] theorem State.useData_die0 (s : State) (a : Issue) (m n : Nat) : (s.useData a m n).die0 = s.die0 := rfl
@[simp] theorem State.useData_die1 (s : State) (a : Issue) (m n : Nat) : (s.useData a m n).die1 = s.die1 := rfl
@[simp] theorem State.useData_sparing (s : State) (a : Issue) (m n : Nat) : (s.useData a m n).sparing = s.sparing := rfl
@[simp] theorem State.useData_regions (s : State) (a : Issue) (m n : Nat) : (s.useData a m n).regions = s.regions := rfl
@[simp] theorem State.useData_links (s : State) (a : Issue) (m n : Nat) : (s.useData a m n).links = s.links := rfl
@[simp] theorem State.useData_eth (s : State) (a : Issue) (m n : Nat) : (s.useData a m n).eth = s.eth := rfl
@[simp] theorem State.useData_tenants (s : State) (a : Issue) (m n : Nat) : (s.useData a m n).tenants = s.tenants := rfl
@[simp] theorem State.useData_sched (s : State) (a : Issue) (m n : Nat) : (s.useData a m n).sched = s.sched := rfl
@[simp] theorem State.useData_nextSched (s : State) (a : Issue) (m n : Nat) : (s.useData a m n).nextSched = s.nextSched := rfl
@[simp] theorem State.useData_slotNow (s : State) (a : Issue) (m n : Nat) : (s.useData a m n).slotNow = s.slotNow := rfl
@[simp] theorem State.useData_board (s : State) (a : Issue) (m n : Nat) : (s.useData a m n).board = s.board := rfl
@[simp] theorem State.useData_sys (s : State) (a : Issue) (m n : Nat) : (s.useData a m n).sys = s.sys := rfl
@[simp] theorem State.useData_power (s : State) (a : Issue) (m n : Nat) : (s.useData a m n).power = s.power := rfl
@[simp] theorem State.useData_flt0 (s : State) (a : Issue) (m n : Nat) : (s.useData a m n).flt0 = s.flt0 := rfl
@[simp] theorem State.useData_flt1 (s : State) (a : Issue) (m n : Nat) : (s.useData a m n).flt1 = s.flt1 := rfl
@[simp] theorem State.useData_fw (s : State) (a : Issue) (m n : Nat) : (s.useData a m n).fw = s.fw := rfl
@[simp] theorem State.useData_reply (s : State) (a : Issue) (m n : Nat) : (s.useData a m n).reply = s.reply := rfl
@[simp] theorem State.useData_fresh (s : State) (a : Issue) (m n : Nat) : (s.useData a m n).fresh = s.fresh := rfl
@[simp] theorem State.useData_pending (s : State) (a : Issue) (m n : Nat) : (s.useData a m n).pending = s.pending := rfl

/-! `modRun`. -/

@[simp] theorem State.modRun_part (s : State) (t : Nat) (f : Run → Run) : (s.modRun t f).part = s.part := by unfold State.modRun; dsimp only; split <;> rfl
@[simp] theorem State.modRun_pins (s : State) (t : Nat) (f : Run → Run) : (s.modRun t f).pins = s.pins := by unfold State.modRun; dsimp only; split <;> rfl
@[simp] theorem State.modRun_tap (s : State) (t : Nat) (f : Run → Run) : (s.modRun t f).tap = s.tap := by unfold State.modRun; dsimp only; split <;> rfl
@[simp] theorem State.modRun_boot (s : State) (t : Nat) (f : Run → Run) : (s.modRun t f).boot = s.boot := by unfold State.modRun; dsimp only; split <;> rfl
@[simp] theorem State.modRun_regs (s : State) (t : Nat) (f : Run → Run) : (s.modRun t f).regs = s.regs := by unfold State.modRun; dsimp only; split <;> rfl
@[simp] theorem State.modRun_sel (s : State) (t : Nat) (f : Run → Run) : (s.modRun t f).sel = s.sel := by unfold State.modRun; dsimp only; split <;> rfl
@[simp] theorem State.modRun_latch (s : State) (t : Nat) (f : Run → Run) : (s.modRun t f).latch = s.latch := by unfold State.modRun; dsimp only; split <;> rfl
@[simp] theorem State.modRun_recent (s : State) (t : Nat) (f : Run → Run) : (s.modRun t f).recent = s.recent := by unfold State.modRun; dsimp only; split <;> rfl
@[simp] theorem State.modRun_clock (s : State) (t : Nat) (f : Run → Run) : (s.modRun t f).clock = s.clock := by unfold State.modRun; dsimp only; split <;> rfl
@[simp] theorem State.modRun_clusters (s : State) (t : Nat) (f : Run → Run) : (s.modRun t f).clusters = s.clusters := by unfold State.modRun; dsimp only; split <;> rfl
@[simp] theorem State.modRun_routers (s : State) (t : Nat) (f : Run → Run) : (s.modRun t f).routers = s.routers := by unfold State.modRun; dsimp only; split <;> rfl
@[simp] theorem State.modRun_barriers (s : State) (t : Nat) (f : Run → Run) : (s.modRun t f).barriers = s.barriers := by unfold State.modRun; dsimp only; split <;> rfl
@[simp] theorem State.modRun_die0 (s : State) (t : Nat) (f : Run → Run) : (s.modRun t f).die0 = s.die0 := by unfold State.modRun; dsimp only; split <;> rfl
@[simp] theorem State.modRun_die1 (s : State) (t : Nat) (f : Run → Run) : (s.modRun t f).die1 = s.die1 := by unfold State.modRun; dsimp only; split <;> rfl
@[simp] theorem State.modRun_sparing (s : State) (t : Nat) (f : Run → Run) : (s.modRun t f).sparing = s.sparing := by unfold State.modRun; dsimp only; split <;> rfl
@[simp] theorem State.modRun_regions (s : State) (t : Nat) (f : Run → Run) : (s.modRun t f).regions = s.regions := by unfold State.modRun; dsimp only; split <;> rfl
@[simp] theorem State.modRun_links (s : State) (t : Nat) (f : Run → Run) : (s.modRun t f).links = s.links := by unfold State.modRun; dsimp only; split <;> rfl
@[simp] theorem State.modRun_eth (s : State) (t : Nat) (f : Run → Run) : (s.modRun t f).eth = s.eth := by unfold State.modRun; dsimp only; split <;> rfl
@[simp] theorem State.modRun_sched (s : State) (t : Nat) (f : Run → Run) : (s.modRun t f).sched = s.sched := by unfold State.modRun; dsimp only; split <;> rfl
@[simp] theorem State.modRun_nextSched (s : State) (t : Nat) (f : Run → Run) : (s.modRun t f).nextSched = s.nextSched := by unfold State.modRun; dsimp only; split <;> rfl
@[simp] theorem State.modRun_slotNow (s : State) (t : Nat) (f : Run → Run) : (s.modRun t f).slotNow = s.slotNow := by unfold State.modRun; dsimp only; split <;> rfl
@[simp] theorem State.modRun_board (s : State) (t : Nat) (f : Run → Run) : (s.modRun t f).board = s.board := by unfold State.modRun; dsimp only; split <;> rfl
@[simp] theorem State.modRun_sys (s : State) (t : Nat) (f : Run → Run) : (s.modRun t f).sys = s.sys := by unfold State.modRun; dsimp only; split <;> rfl
@[simp] theorem State.modRun_power (s : State) (t : Nat) (f : Run → Run) : (s.modRun t f).power = s.power := by unfold State.modRun; dsimp only; split <;> rfl
@[simp] theorem State.modRun_flt0 (s : State) (t : Nat) (f : Run → Run) : (s.modRun t f).flt0 = s.flt0 := by unfold State.modRun; dsimp only; split <;> rfl
@[simp] theorem State.modRun_flt1 (s : State) (t : Nat) (f : Run → Run) : (s.modRun t f).flt1 = s.flt1 := by unfold State.modRun; dsimp only; split <;> rfl
@[simp] theorem State.modRun_fw (s : State) (t : Nat) (f : Run → Run) : (s.modRun t f).fw = s.fw := by unfold State.modRun; dsimp only; split <;> rfl
@[simp] theorem State.modRun_reply (s : State) (t : Nat) (f : Run → Run) : (s.modRun t f).reply = s.reply := by unfold State.modRun; dsimp only; split <;> rfl
@[simp] theorem State.modRun_fresh (s : State) (t : Nat) (f : Run → Run) : (s.modRun t f).fresh = s.fresh := by unfold State.modRun; dsimp only; split <;> rfl
@[simp] theorem State.modRun_pending (s : State) (t : Nat) (f : Run → Run) : (s.modRun t f).pending = s.pending := by unfold State.modRun; dsimp only; split <;> rfl

/-! `summarise`. -/

@[simp] theorem State.summarise_part (s : State) (t : Nat) (f : Summary → Summary) : (s.summarise t f).part = s.part := State.modRun_part _ _ _
@[simp] theorem State.summarise_pins (s : State) (t : Nat) (f : Summary → Summary) : (s.summarise t f).pins = s.pins := State.modRun_pins _ _ _
@[simp] theorem State.summarise_tap (s : State) (t : Nat) (f : Summary → Summary) : (s.summarise t f).tap = s.tap := State.modRun_tap _ _ _
@[simp] theorem State.summarise_boot (s : State) (t : Nat) (f : Summary → Summary) : (s.summarise t f).boot = s.boot := State.modRun_boot _ _ _
@[simp] theorem State.summarise_regs (s : State) (t : Nat) (f : Summary → Summary) : (s.summarise t f).regs = s.regs := State.modRun_regs _ _ _
@[simp] theorem State.summarise_sel (s : State) (t : Nat) (f : Summary → Summary) : (s.summarise t f).sel = s.sel := State.modRun_sel _ _ _
@[simp] theorem State.summarise_latch (s : State) (t : Nat) (f : Summary → Summary) : (s.summarise t f).latch = s.latch := State.modRun_latch _ _ _
@[simp] theorem State.summarise_recent (s : State) (t : Nat) (f : Summary → Summary) : (s.summarise t f).recent = s.recent := State.modRun_recent _ _ _
@[simp] theorem State.summarise_clock (s : State) (t : Nat) (f : Summary → Summary) : (s.summarise t f).clock = s.clock := State.modRun_clock _ _ _
@[simp] theorem State.summarise_clusters (s : State) (t : Nat) (f : Summary → Summary) : (s.summarise t f).clusters = s.clusters := State.modRun_clusters _ _ _
@[simp] theorem State.summarise_routers (s : State) (t : Nat) (f : Summary → Summary) : (s.summarise t f).routers = s.routers := State.modRun_routers _ _ _
@[simp] theorem State.summarise_barriers (s : State) (t : Nat) (f : Summary → Summary) : (s.summarise t f).barriers = s.barriers := State.modRun_barriers _ _ _
@[simp] theorem State.summarise_die0 (s : State) (t : Nat) (f : Summary → Summary) : (s.summarise t f).die0 = s.die0 := State.modRun_die0 _ _ _
@[simp] theorem State.summarise_die1 (s : State) (t : Nat) (f : Summary → Summary) : (s.summarise t f).die1 = s.die1 := State.modRun_die1 _ _ _
@[simp] theorem State.summarise_sparing (s : State) (t : Nat) (f : Summary → Summary) : (s.summarise t f).sparing = s.sparing := State.modRun_sparing _ _ _
@[simp] theorem State.summarise_regions (s : State) (t : Nat) (f : Summary → Summary) : (s.summarise t f).regions = s.regions := State.modRun_regions _ _ _
@[simp] theorem State.summarise_links (s : State) (t : Nat) (f : Summary → Summary) : (s.summarise t f).links = s.links := State.modRun_links _ _ _
@[simp] theorem State.summarise_eth (s : State) (t : Nat) (f : Summary → Summary) : (s.summarise t f).eth = s.eth := State.modRun_eth _ _ _
@[simp] theorem State.summarise_sched (s : State) (t : Nat) (f : Summary → Summary) : (s.summarise t f).sched = s.sched := State.modRun_sched _ _ _
@[simp] theorem State.summarise_nextSched (s : State) (t : Nat) (f : Summary → Summary) : (s.summarise t f).nextSched = s.nextSched := State.modRun_nextSched _ _ _
@[simp] theorem State.summarise_slotNow (s : State) (t : Nat) (f : Summary → Summary) : (s.summarise t f).slotNow = s.slotNow := State.modRun_slotNow _ _ _
@[simp] theorem State.summarise_board (s : State) (t : Nat) (f : Summary → Summary) : (s.summarise t f).board = s.board := State.modRun_board _ _ _
@[simp] theorem State.summarise_sys (s : State) (t : Nat) (f : Summary → Summary) : (s.summarise t f).sys = s.sys := State.modRun_sys _ _ _
@[simp] theorem State.summarise_power (s : State) (t : Nat) (f : Summary → Summary) : (s.summarise t f).power = s.power := State.modRun_power _ _ _
@[simp] theorem State.summarise_flt0 (s : State) (t : Nat) (f : Summary → Summary) : (s.summarise t f).flt0 = s.flt0 := State.modRun_flt0 _ _ _
@[simp] theorem State.summarise_flt1 (s : State) (t : Nat) (f : Summary → Summary) : (s.summarise t f).flt1 = s.flt1 := State.modRun_flt1 _ _ _
@[simp] theorem State.summarise_fw (s : State) (t : Nat) (f : Summary → Summary) : (s.summarise t f).fw = s.fw := State.modRun_fw _ _ _
@[simp] theorem State.summarise_reply (s : State) (t : Nat) (f : Summary → Summary) : (s.summarise t f).reply = s.reply := State.modRun_reply _ _ _
@[simp] theorem State.summarise_fresh (s : State) (t : Nat) (f : Summary → Summary) : (s.summarise t f).fresh = s.fresh := State.modRun_fresh _ _ _
@[simp] theorem State.summarise_pending (s : State) (t : Nat) (f : Summary → Summary) : (s.summarise t f).pending = s.pending := State.modRun_pending _ _ _

/-! What each reader gives after each writer. -/

@[simp] theorem State.cluster_setCluster (s : State) (d p : Nat) (c : Cluster) : (s.setCluster d p c).cluster d p = c :=
  Tab.get_set_self ..

theorem State.cluster_setCluster_ne (s : State) {d p d' p' : Nat} (c : Cluster) (h : clKey d' p' ≠ clKey d p) :
    (s.setCluster d p c).cluster d' p' = s.cluster d' p' := Tab.get_set_ne _ _ _ h

@[simp] theorem State.router_setRouter (s : State) (d p : Nat) (r : Router) : (s.setRouter d p r).router d p = r :=
  Tab.get_set_self ..

theorem State.router_setRouter_ne (s : State) {d p d' p' : Nat} (r : Router) (h : clKey d' p' ≠ clKey d p) :
    (s.setRouter d p r).router d' p' = s.router d' p' := Tab.get_set_ne _ _ _ h

@[simp] theorem State.region_setRegion (s : State) (n : Nat) (r : Region) : (s.setRegion n r).region n = r :=
  Tab.get_set_self ..

theorem State.region_setRegion_ne (s : State) {n m : Nat} (r : Region) (h : m ≠ n) :
    (s.setRegion n r).region m = s.region m := Tab.get_set_ne _ _ _ h

@[simp] theorem State.link_setLink (s : State) (d l : Nat) (x : Link) : (s.setLink d l x).link d l = x :=
  Tab.get_set_self ..

theorem State.link_setLink_ne (s : State) {d l d' l' : Nat} (x : Link) (h : linkKey d' l' ≠ linkKey d l) :
    (s.setLink d l x).link d' l' = s.link d' l' := Tab.get_set_ne _ _ _ h

@[simp] theorem State.tenant_setTenant (s : State) (t : Nat) (x : Tenant) : (s.setTenant t x).tenant t = x :=
  Tab.get_set_self ..

theorem State.tenant_setTenant_ne (s : State) {t u : Nat} (x : Tenant) (h : u ≠ t) :
    (s.setTenant t x).tenant u = s.tenant u := Tab.get_set_ne _ _ _ h

@[simp] theorem State.reg_setReg (s : State) (n o : Nat) (r v : Word) : (s.setReg n o r v).reg n o r = v :=
  Tab.get_set_self ..

@[simp] theorem State.dieOf_setDie (s : State) (d : Nat) (x : Die) : (s.setDie d x).dieOf d = x := by
  unfold State.setDie State.dieOf; split <;> rfl

@[simp] theorem State.flt_setFlt (s : State) (d : Nat) (x : Flt) : (s.setFlt d x).flt d = x := by
  unfold State.setFlt State.flt; split <;> rfl

@[simp] theorem State.cluster_modCluster (s : State) (d p : Nat) (f : Cluster → Cluster) :
    (s.modCluster d p f).cluster d p = f (s.cluster d p) := Tab.get_set_self ..

theorem State.cluster_modCluster_ne (s : State) {d p d' p' : Nat} (f : Cluster → Cluster) (h : clKey d' p' ≠ clKey d p) :
    (s.modCluster d p f).cluster d' p' = s.cluster d' p' := Tab.get_set_ne _ _ _ h

/-- Clusters of a die are told apart by their number. -/
theorem clKey_ne {d p d' p' : Nat} (hp : p < 24) (hp' : p' < 24) (h : (d', p') ≠ (d, p)) : clKey d' p' ≠ clKey d p := by
  intro e
  apply h
  unfold clKey at e
  have e1 : d' = d := by omega
  have e2 : p' = p := by omega
  rw [e1, e2]

theorem linkKey_ne {d l d' l' : Nat} (hl : l < 24) (hl' : l' < 24) (h : (d', l') ≠ (d, l)) : linkKey d' l' ≠ linkKey d l :=
  clKey_ne hl hl' h

/-! A cluster. -/

/-! `Cluster.setCtx`. -/

@[simp] theorem Cluster.setCtx_a0 (c : Cluster) (n : Nat) (x : Ctx) : (c.setCtx n x).a0 = c.a0 := rfl
@[simp] theorem Cluster.setCtx_a1 (c : Cluster) (n : Nat) (x : Ctx) : (c.setCtx n x).a1 = c.a1 := rfl
@[simp] theorem Cluster.setCtx_v0 (c : Cluster) (n : Nat) (x : Ctx) : (c.setCtx n x).v0 = c.v0 := rfl
@[simp] theorem Cluster.setCtx_v1 (c : Cluster) (n : Nat) (x : Ctx) : (c.setCtx n x).v1 = c.v1 := rfl
@[simp] theorem Cluster.setCtx_xb (c : Cluster) (n : Nat) (x : Ctx) : (c.setCtx n x).xb = c.xb := rfl
@[simp] theorem Cluster.setCtx_xbv (c : Cluster) (n : Nat) (x : Ctx) : (c.setCtx n x).xbv = c.xbv := rfl
@[simp] theorem Cluster.setCtx_spad (c : Cluster) (n : Nat) (x : Ctx) : (c.setCtx n x).spad = c.spad := rfl
@[simp] theorem Cluster.setCtx_s0 (c : Cluster) (n : Nat) (x : Ctx) : (c.setCtx n x).s0 = c.s0 := rfl
@[simp] theorem Cluster.setCtx_s1 (c : Cluster) (n : Nat) (x : Ctx) : (c.setCtx n x).s1 = c.s1 := rfl
@[simp] theorem Cluster.setCtx_s2 (c : Cluster) (n : Nat) (x : Ctx) : (c.setCtx n x).s2 = c.s2 := rfl
@[simp] theorem Cluster.setCtx_s3 (c : Cluster) (n : Nat) (x : Ctx) : (c.setCtx n x).s3 = c.s3 := rfl
@[simp] theorem Cluster.setCtx_ports (c : Cluster) (n : Nat) (x : Ctx) : (c.setCtx n x).ports = c.ports := rfl
@[simp] theorem Cluster.setCtx_dport (c : Cluster) (n : Nat) (x : Ctx) : (c.setCtx n x).dport = c.dport := rfl
@[simp] theorem Cluster.setCtx_lines (c : Cluster) (n : Nat) (x : Ctx) : (c.setCtx n x).lines = c.lines := rfl
@[simp] theorem Cluster.setCtx_dsram (c : Cluster) (n : Nat) (x : Ctx) : (c.setCtx n x).dsram = c.dsram := rfl
@[simp] theorem Cluster.setCtx_x (c : Cluster) (n : Nat) (x : Ctx) : (c.setCtx n x).x = c.x := rfl
@[simp] theorem Cluster.setCtx_flags (c : Cluster) (n : Nat) (x : Ctx) : (c.setCtx n x).flags = c.flags := rfl
@[simp] theorem Cluster.setCtx_flagMsgs (c : Cluster) (n : Nat) (x : Ctx) : (c.setCtx n x).flagMsgs = c.flagMsgs := rfl
@[simp] theorem Cluster.setCtx_running (c : Cluster) (n : Nat) (x : Ctx) : (c.setCtx n x).running = c.running := rfl
@[simp] theorem Cluster.setCtx_occupant (c : Cluster) (n : Nat) (x : Ctx) : (c.setCtx n x).occupant = c.occupant := rfl
@[simp] theorem Cluster.setCtx_dwin (c : Cluster) (n : Nat) (x : Ctx) : (c.setCtx n x).dwin = c.dwin := rfl

/-! `Cluster.setFlag`. -/

@[simp] theorem Cluster.setFlag_a0 (c : Cluster) (n : Nat) (x : Flag) : (c.setFlag n x).a0 = c.a0 := rfl
@[simp] theorem Cluster.setFlag_a1 (c : Cluster) (n : Nat) (x : Flag) : (c.setFlag n x).a1 = c.a1 := rfl
@[simp] theorem Cluster.setFlag_v0 (c : Cluster) (n : Nat) (x : Flag) : (c.setFlag n x).v0 = c.v0 := rfl
@[simp] theorem Cluster.setFlag_v1 (c : Cluster) (n : Nat) (x : Flag) : (c.setFlag n x).v1 = c.v1 := rfl
@[simp] theorem Cluster.setFlag_xb (c : Cluster) (n : Nat) (x : Flag) : (c.setFlag n x).xb = c.xb := rfl
@[simp] theorem Cluster.setFlag_xbv (c : Cluster) (n : Nat) (x : Flag) : (c.setFlag n x).xbv = c.xbv := rfl
@[simp] theorem Cluster.setFlag_spad (c : Cluster) (n : Nat) (x : Flag) : (c.setFlag n x).spad = c.spad := rfl
@[simp] theorem Cluster.setFlag_s0 (c : Cluster) (n : Nat) (x : Flag) : (c.setFlag n x).s0 = c.s0 := rfl
@[simp] theorem Cluster.setFlag_s1 (c : Cluster) (n : Nat) (x : Flag) : (c.setFlag n x).s1 = c.s1 := rfl
@[simp] theorem Cluster.setFlag_s2 (c : Cluster) (n : Nat) (x : Flag) : (c.setFlag n x).s2 = c.s2 := rfl
@[simp] theorem Cluster.setFlag_s3 (c : Cluster) (n : Nat) (x : Flag) : (c.setFlag n x).s3 = c.s3 := rfl
@[simp] theorem Cluster.setFlag_ports (c : Cluster) (n : Nat) (x : Flag) : (c.setFlag n x).ports = c.ports := rfl
@[simp] theorem Cluster.setFlag_dport (c : Cluster) (n : Nat) (x : Flag) : (c.setFlag n x).dport = c.dport := rfl
@[simp] theorem Cluster.setFlag_lines (c : Cluster) (n : Nat) (x : Flag) : (c.setFlag n x).lines = c.lines := rfl
@[simp] theorem Cluster.setFlag_dsram (c : Cluster) (n : Nat) (x : Flag) : (c.setFlag n x).dsram = c.dsram := rfl
@[simp] theorem Cluster.setFlag_x (c : Cluster) (n : Nat) (x : Flag) : (c.setFlag n x).x = c.x := rfl
@[simp] theorem Cluster.setFlag_ctxs (c : Cluster) (n : Nat) (x : Flag) : (c.setFlag n x).ctxs = c.ctxs := rfl
@[simp] theorem Cluster.setFlag_flagMsgs (c : Cluster) (n : Nat) (x : Flag) : (c.setFlag n x).flagMsgs = c.flagMsgs := rfl
@[simp] theorem Cluster.setFlag_running (c : Cluster) (n : Nat) (x : Flag) : (c.setFlag n x).running = c.running := rfl
@[simp] theorem Cluster.setFlag_occupant (c : Cluster) (n : Nat) (x : Flag) : (c.setFlag n x).occupant = c.occupant := rfl
@[simp] theorem Cluster.setFlag_dwin (c : Cluster) (n : Nat) (x : Flag) : (c.setFlag n x).dwin = c.dwin := rfl

/-! `Cluster.setArr`. -/

@[simp] theorem Cluster.setArr_v0 (c : Cluster) (n : Nat) (x : Arr) : (c.setArr n x).v0 = c.v0 := by unfold Cluster.setArr; split <;> rfl
@[simp] theorem Cluster.setArr_v1 (c : Cluster) (n : Nat) (x : Arr) : (c.setArr n x).v1 = c.v1 := by unfold Cluster.setArr; split <;> rfl
@[simp] theorem Cluster.setArr_xb (c : Cluster) (n : Nat) (x : Arr) : (c.setArr n x).xb = c.xb := by unfold Cluster.setArr; split <;> rfl
@[simp] theorem Cluster.setArr_xbv (c : Cluster) (n : Nat) (x : Arr) : (c.setArr n x).xbv = c.xbv := by unfold Cluster.setArr; split <;> rfl
@[simp] theorem Cluster.setArr_spad (c : Cluster) (n : Nat) (x : Arr) : (c.setArr n x).spad = c.spad := by unfold Cluster.setArr; split <;> rfl
@[simp] theorem Cluster.setArr_s0 (c : Cluster) (n : Nat) (x : Arr) : (c.setArr n x).s0 = c.s0 := by unfold Cluster.setArr; split <;> rfl
@[simp] theorem Cluster.setArr_s1 (c : Cluster) (n : Nat) (x : Arr) : (c.setArr n x).s1 = c.s1 := by unfold Cluster.setArr; split <;> rfl
@[simp] theorem Cluster.setArr_s2 (c : Cluster) (n : Nat) (x : Arr) : (c.setArr n x).s2 = c.s2 := by unfold Cluster.setArr; split <;> rfl
@[simp] theorem Cluster.setArr_s3 (c : Cluster) (n : Nat) (x : Arr) : (c.setArr n x).s3 = c.s3 := by unfold Cluster.setArr; split <;> rfl
@[simp] theorem Cluster.setArr_ports (c : Cluster) (n : Nat) (x : Arr) : (c.setArr n x).ports = c.ports := by unfold Cluster.setArr; split <;> rfl
@[simp] theorem Cluster.setArr_dport (c : Cluster) (n : Nat) (x : Arr) : (c.setArr n x).dport = c.dport := by unfold Cluster.setArr; split <;> rfl
@[simp] theorem Cluster.setArr_lines (c : Cluster) (n : Nat) (x : Arr) : (c.setArr n x).lines = c.lines := by unfold Cluster.setArr; split <;> rfl
@[simp] theorem Cluster.setArr_dsram (c : Cluster) (n : Nat) (x : Arr) : (c.setArr n x).dsram = c.dsram := by unfold Cluster.setArr; split <;> rfl
@[simp] theorem Cluster.setArr_x (c : Cluster) (n : Nat) (x : Arr) : (c.setArr n x).x = c.x := by unfold Cluster.setArr; split <;> rfl
@[simp] theorem Cluster.setArr_ctxs (c : Cluster) (n : Nat) (x : Arr) : (c.setArr n x).ctxs = c.ctxs := by unfold Cluster.setArr; split <;> rfl
@[simp] theorem Cluster.setArr_flags (c : Cluster) (n : Nat) (x : Arr) : (c.setArr n x).flags = c.flags := by unfold Cluster.setArr; split <;> rfl
@[simp] theorem Cluster.setArr_flagMsgs (c : Cluster) (n : Nat) (x : Arr) : (c.setArr n x).flagMsgs = c.flagMsgs := by unfold Cluster.setArr; split <;> rfl
@[simp] theorem Cluster.setArr_running (c : Cluster) (n : Nat) (x : Arr) : (c.setArr n x).running = c.running := by unfold Cluster.setArr; split <;> rfl
@[simp] theorem Cluster.setArr_occupant (c : Cluster) (n : Nat) (x : Arr) : (c.setArr n x).occupant = c.occupant := by unfold Cluster.setArr; split <;> rfl
@[simp] theorem Cluster.setArr_dwin (c : Cluster) (n : Nat) (x : Arr) : (c.setArr n x).dwin = c.dwin := by unfold Cluster.setArr; split <;> rfl

/-! `Cluster.setVcore`. -/

@[simp] theorem Cluster.setVcore_a0 (c : Cluster) (n : Nat) (x : VCore) : (c.setVcore n x).a0 = c.a0 := by unfold Cluster.setVcore; split <;> rfl
@[simp] theorem Cluster.setVcore_a1 (c : Cluster) (n : Nat) (x : VCore) : (c.setVcore n x).a1 = c.a1 := by unfold Cluster.setVcore; split <;> rfl
@[simp] theorem Cluster.setVcore_xb (c : Cluster) (n : Nat) (x : VCore) : (c.setVcore n x).xb = c.xb := by unfold Cluster.setVcore; split <;> rfl
@[simp] theorem Cluster.setVcore_xbv (c : Cluster) (n : Nat) (x : VCore) : (c.setVcore n x).xbv = c.xbv := by unfold Cluster.setVcore; split <;> rfl
@[simp] theorem Cluster.setVcore_spad (c : Cluster) (n : Nat) (x : VCore) : (c.setVcore n x).spad = c.spad := by unfold Cluster.setVcore; split <;> rfl
@[simp] theorem Cluster.setVcore_s0 (c : Cluster) (n : Nat) (x : VCore) : (c.setVcore n x).s0 = c.s0 := by unfold Cluster.setVcore; split <;> rfl
@[simp] theorem Cluster.setVcore_s1 (c : Cluster) (n : Nat) (x : VCore) : (c.setVcore n x).s1 = c.s1 := by unfold Cluster.setVcore; split <;> rfl
@[simp] theorem Cluster.setVcore_s2 (c : Cluster) (n : Nat) (x : VCore) : (c.setVcore n x).s2 = c.s2 := by unfold Cluster.setVcore; split <;> rfl
@[simp] theorem Cluster.setVcore_s3 (c : Cluster) (n : Nat) (x : VCore) : (c.setVcore n x).s3 = c.s3 := by unfold Cluster.setVcore; split <;> rfl
@[simp] theorem Cluster.setVcore_ports (c : Cluster) (n : Nat) (x : VCore) : (c.setVcore n x).ports = c.ports := by unfold Cluster.setVcore; split <;> rfl
@[simp] theorem Cluster.setVcore_dport (c : Cluster) (n : Nat) (x : VCore) : (c.setVcore n x).dport = c.dport := by unfold Cluster.setVcore; split <;> rfl
@[simp] theorem Cluster.setVcore_lines (c : Cluster) (n : Nat) (x : VCore) : (c.setVcore n x).lines = c.lines := by unfold Cluster.setVcore; split <;> rfl
@[simp] theorem Cluster.setVcore_dsram (c : Cluster) (n : Nat) (x : VCore) : (c.setVcore n x).dsram = c.dsram := by unfold Cluster.setVcore; split <;> rfl
@[simp] theorem Cluster.setVcore_x (c : Cluster) (n : Nat) (x : VCore) : (c.setVcore n x).x = c.x := by unfold Cluster.setVcore; split <;> rfl
@[simp] theorem Cluster.setVcore_ctxs (c : Cluster) (n : Nat) (x : VCore) : (c.setVcore n x).ctxs = c.ctxs := by unfold Cluster.setVcore; split <;> rfl
@[simp] theorem Cluster.setVcore_flags (c : Cluster) (n : Nat) (x : VCore) : (c.setVcore n x).flags = c.flags := by unfold Cluster.setVcore; split <;> rfl
@[simp] theorem Cluster.setVcore_flagMsgs (c : Cluster) (n : Nat) (x : VCore) : (c.setVcore n x).flagMsgs = c.flagMsgs := by unfold Cluster.setVcore; split <;> rfl
@[simp] theorem Cluster.setVcore_running (c : Cluster) (n : Nat) (x : VCore) : (c.setVcore n x).running = c.running := by unfold Cluster.setVcore; split <;> rfl
@[simp] theorem Cluster.setVcore_occupant (c : Cluster) (n : Nat) (x : VCore) : (c.setVcore n x).occupant = c.occupant := by unfold Cluster.setVcore; split <;> rfl
@[simp] theorem Cluster.setVcore_dwin (c : Cluster) (n : Nat) (x : VCore) : (c.setVcore n x).dwin = c.dwin := by unfold Cluster.setVcore; split <;> rfl

/-! `Cluster.setSlice`. -/

@[simp] theorem Cluster.setSlice_a0 (c : Cluster) (n : Nat) (x : Slice) : (c.setSlice n x).a0 = c.a0 := by unfold Cluster.setSlice; split <;> rfl
@[simp] theorem Cluster.setSlice_a1 (c : Cluster) (n : Nat) (x : Slice) : (c.setSlice n x).a1 = c.a1 := by unfold Cluster.setSlice; split <;> rfl
@[simp] theorem Cluster.setSlice_v0 (c : Cluster) (n : Nat) (x : Slice) : (c.setSlice n x).v0 = c.v0 := by unfold Cluster.setSlice; split <;> rfl
@[simp] theorem Cluster.setSlice_v1 (c : Cluster) (n : Nat) (x : Slice) : (c.setSlice n x).v1 = c.v1 := by unfold Cluster.setSlice; split <;> rfl
@[simp] theorem Cluster.setSlice_xb (c : Cluster) (n : Nat) (x : Slice) : (c.setSlice n x).xb = c.xb := by unfold Cluster.setSlice; split <;> rfl
@[simp] theorem Cluster.setSlice_xbv (c : Cluster) (n : Nat) (x : Slice) : (c.setSlice n x).xbv = c.xbv := by unfold Cluster.setSlice; split <;> rfl
@[simp] theorem Cluster.setSlice_spad (c : Cluster) (n : Nat) (x : Slice) : (c.setSlice n x).spad = c.spad := by unfold Cluster.setSlice; split <;> rfl
@[simp] theorem Cluster.setSlice_ports (c : Cluster) (n : Nat) (x : Slice) : (c.setSlice n x).ports = c.ports := by unfold Cluster.setSlice; split <;> rfl
@[simp] theorem Cluster.setSlice_dport (c : Cluster) (n : Nat) (x : Slice) : (c.setSlice n x).dport = c.dport := by unfold Cluster.setSlice; split <;> rfl
@[simp] theorem Cluster.setSlice_lines (c : Cluster) (n : Nat) (x : Slice) : (c.setSlice n x).lines = c.lines := by unfold Cluster.setSlice; split <;> rfl
@[simp] theorem Cluster.setSlice_dsram (c : Cluster) (n : Nat) (x : Slice) : (c.setSlice n x).dsram = c.dsram := by unfold Cluster.setSlice; split <;> rfl
@[simp] theorem Cluster.setSlice_x (c : Cluster) (n : Nat) (x : Slice) : (c.setSlice n x).x = c.x := by unfold Cluster.setSlice; split <;> rfl
@[simp] theorem Cluster.setSlice_ctxs (c : Cluster) (n : Nat) (x : Slice) : (c.setSlice n x).ctxs = c.ctxs := by unfold Cluster.setSlice; split <;> rfl
@[simp] theorem Cluster.setSlice_flags (c : Cluster) (n : Nat) (x : Slice) : (c.setSlice n x).flags = c.flags := by unfold Cluster.setSlice; split <;> rfl
@[simp] theorem Cluster.setSlice_flagMsgs (c : Cluster) (n : Nat) (x : Slice) : (c.setSlice n x).flagMsgs = c.flagMsgs := by unfold Cluster.setSlice; split <;> rfl
@[simp] theorem Cluster.setSlice_running (c : Cluster) (n : Nat) (x : Slice) : (c.setSlice n x).running = c.running := by unfold Cluster.setSlice; split <;> rfl
@[simp] theorem Cluster.setSlice_occupant (c : Cluster) (n : Nat) (x : Slice) : (c.setSlice n x).occupant = c.occupant := by unfold Cluster.setSlice; split <;> rfl
@[simp] theorem Cluster.setSlice_dwin (c : Cluster) (n : Nat) (x : Slice) : (c.setSlice n x).dwin = c.dwin := by unfold Cluster.setSlice; split <;> rfl

@[simp] theorem Cluster.ctx_setCtx (c : Cluster) (n : Nat) (x : Ctx) : (c.setCtx n x).ctx n = x := Tab.get_set_self ..

theorem Cluster.ctx_setCtx_ne (c : Cluster) {n m : Nat} (x : Ctx) (h : m ≠ n) : (c.setCtx n x).ctx m = c.ctx m :=
  Tab.get_set_ne _ _ _ h

@[simp] theorem Cluster.flag_setFlag (c : Cluster) (n : Nat) (x : Flag) : (c.setFlag n x).flag n = x := Tab.get_set_self ..

theorem Cluster.flag_setFlag_ne (c : Cluster) {n m : Nat} (x : Flag) (h : m ≠ n) : (c.setFlag n x).flag m = c.flag m :=
  Tab.get_set_ne _ _ _ h

@[simp] theorem Cluster.arr_setArr (c : Cluster) (n : Nat) (x : Arr) : (c.setArr n x).arr n = x := by
  unfold Cluster.setArr Cluster.arr; split <;> rfl

@[simp] theorem Cluster.vcore_setVcore (c : Cluster) (n : Nat) (x : VCore) : (c.setVcore n x).vcore n = x := by
  unfold Cluster.setVcore Cluster.vcore; split <;> rfl

@[simp] theorem Cluster.slice_setSlice (c : Cluster) (n : Nat) (x : Slice) : (c.setSlice n x).slice n = x := by
  match n with
  | 0 => rfl
  | 1 => rfl
  | 2 => rfl
  | _ + 3 => rfl

@[simp] theorem State.ctxAt_modCtx (s : State) (a : Issue) (f : Ctx → Ctx) : (s.modCtx a f).ctxAt a = f (s.ctxAt a) := by
  simp [State.modCtx, State.ctxAt]

/-- Results put on their way stand after those of the context. -/
@[simp] theorem State.ctxAt_file (s : State) (a : Issue) (xs : List (Nat × Commit)) :
    (s.file a xs).ctxAt a = { s.ctxAt a with commits := (s.ctxAt a).commits ++ xs } := by
  simp [State.file]

end Sys2Proof.Machine
end

