-- ==== Sys2Proof/WellFormed.lean ====
section
/-!
DEFINITION. Which commands are well formed: every operand within the range its rule gives it. The meanings are
total and do not rest on it; the verifier's own checks of a plate are in Machine/Words.lean and Machine/Hazards.lean.
-/

namespace Sys2Proof

/-- A place where a slot issues (R14, R149). -/
def Issue.wf (a : Issue) : Bool := a.die < 2 && a.phys < 24 && a.ctx < 16

/-- A host command's head (R285). -/
def CmdHead.wf (h : CmdHead) : Bool := h.tenant < 256 && h.seq < 2 ^ 32 && h.tag < 2 ^ 16

/-- An AGENT value (R214). -/
def Agent.wf (a : Agent) : Bool := a.tenant < 256

/-- R77. -/
def StreamSlot.wf (f : StreamSlot) : Bool :=
  f.arr < 2 && f.wfmt < 16 && f.tb < 2 && f.acc < 4 && f.pa < 64 && f.pb < 64 && f.ps < 64 && f.po < 64 &&
    f.nm1 < 2 ^ 16 && f.accbase < 2048

/-- R74. -/
def LoadSlot.wf (f : LoadSlot) : Bool :=
  f.arr < 2 && f.tb < 2 && f.sfmt < 16 && f.pa < 64 && f.pb < 64 && f.ps < 64 && f.pitch < 2 ^ 16

/-- R104. -/
def SetSlot.wf (f : SetSlot) : Bool :=
  f.arr < 2 && f.ofmt < 16 && f.rnd < 2 && f.ovm < 2 && f.chm < 2 && f.clipen < 2 && f.psc < 64 && f.pbi < 64 &&
    f.plo < 64 && f.phi < 64 && f.pix < 64 && f.pso < 64

/-- R104. -/
def TloadSlot.wf (f : TloadSlot) : Bool := f.arr < 2 && f.pa < 64 && f.km1 < 2048 && f.tbase < 2048

/-- R124. -/
def VecSlot.wf (f : VecSlot) : Bool :=
  f.core < 2 && f.vd < 32 && f.va < 32 && f.vb < 32 && f.vc < 32 && f.pk < 2 && f.sb < 2 && f.pp < 64 &&
    f.row < 256 && f.pair < 2

/-- R125. -/
def VmemSlot.wf (f : VmemSlot) : Bool :=
  f.core < 2 && f.vr < 32 && f.pa < 64 && f.fmt < 16 && f.pk < 2 && f.rnd < 2 && f.ovm < 2 && f.pix < 64 &&
    f.off < 2 ^ 16

/-- R137. -/
def TopkSlot.wf (f : TopkSlot) : Bool :=
  f.vc < 2 && f.xb < 4 && f.kfmt < 2 && f.pa < 64 && f.pib < 64 && f.cm1 < 4096 && f.km1 < 64 && f.outen < 2 && f.po < 64

/-- R137. -/
def IxldSlot.wf (f : IxldSlot) : Bool := f.vc < 2 && f.xb < 4 && f.pa < 64

/-- R137. -/
def GatherSlot.wf (f : GatherSlot) : Bool :=
  f.vc < 2 && f.xb < 4 && f.pw < 64 && f.po < 64 && f.pn < 64 && f.gm1 < 64 && f.nbm1 < 64 && f.stride < 2 ^ 16

/-- R137. -/
def ScatterSlot.wf (f : ScatterSlot) : Bool :=
  f.vc < 2 && f.pl < 64 && f.ps < 64 && f.po < 64 && f.pm < 64 && f.tm1 < 4096 && f.dm1 < 256 && f.cm1 < 256 && f.pf < 64

/-- R170. -/
def StoreSlot.wf (f : StoreSlot) : Bool := f.ps < 64 && f.pd < 64 && f.nm1 < 2 ^ 16

/-- R172. -/
def BulkSlot.wf (f : BulkSlot) : Bool := f.pa < 64 && f.nm1 < 2 ^ 16 && f.chk < 2 && f.pq < 64 && f.pda < 64

/-- R173. -/
def SyncSlot.wf (f : SyncSlot) : Bool :=
  f.flag < 256 && f.remote < 2 && f.tcl < 32 && f.tdie < 2 && f.tpkg < 16 && f.pt < 64 && f.scope < 4

/-- R164. -/
def ParamSlot.wf (f : ParamSlot) : Bool := f.pd < 64 && f.pa < 64 && f.nm1 < 16 && f.imm < 2 ^ 32

/-- R156. -/
def LoopWord.wf (w : LoopWord) : Bool := w.lc < 4 && w.exitend < 2 && w.target < 2 ^ 16 && w.cm1 < 2 ^ 16

/-- R310. -/
def ApEntry.wf (e : ApEntry) : Bool :=
  e.apt < 256 && e.die < 2 && e.cluster < 32 && e.slice < 4 && e.base < 4096 && e.size ≤ 4096

/-- R300, R304. -/
def OpenArgs.wf (a : OpenArgs) : Bool :=
  a.tenant < 256 && a.keyid < 256 && a.flags < 256 && a.barriers < 256 && a.lwin < 2 ^ 16 && a.dwin < 256 &&
    a.apertures.length < 2 ^ 16 && a.apertures.all ApEntry.wf

/-- R300. -/
def XferArgs.wf (x : XferArgs) : Bool := x.apt < 256 && x.offset < 2 ^ 32 && x.n < 2 ^ 32 && x.tseq < 2 ^ 32

/-- R275: a payload has at most 9,106 bytes. -/
def dataPayloadWf (bs : List Byte) : Bool := bs.length ≤ 9106

/-- R300. -/
def PatchEntry.wf (e : PatchEntry) : Bool := e.cl < 256 && e.reg < 256

/-- R270; a frame of any size can come (R271). -/
def PortFrame.wf (f : PortFrame) : Bool := f.half < 2

/-- R272. -/
def PtpMessage.wf (m : PtpMessage) : Bool := m.half < 2 && m.transport < 3 && m.domain < 256

/-- R261. -/
def IdentRecord.wf (r : IdentRecord) : Bool := r.port < 256 && r.die < 2 && r.slot < 16

/-- R291. -/
def ScaleDesc.wf (d : ScaleDesc) : Bool :=
  d.dest < 2 ^ 16 && d.apt < 256 && d.flag < 256 && d.tcl < 32 && d.tdie < 2

/-- Every operand within its range. -/
def Instr.wellFormed : Instr → Bool
  | .hello h session ackt => h.wf && decide (session < 2 ^ 32) && decide (ackt < 2 ^ 16)
  | .openTenant h a => h.wf && a.wf
  | .close h tenant => h.wf && decide (tenant < 256)
  | .write h x segs => h.wf && x.wf && segs.all dataPayloadWf
  | .read h x => h.wf && x.wf
  | .loadPlate h apt offset len => h.wf && decide (apt < 256) && decide (offset < 2 ^ 32) && decide (len < 2 ^ 32)
  | .bind h clusters packages _ => h.wf && (decide (1 ≤ clusters.length) && decide (clusters.length ≤ 48)) && decide (packages.length ≤ 4096)
  | .patch h x entries => h.wf && decide (x < 2 ^ 32) && entries.all PatchEntry.wf
  | .arm h => h.wf
  | .launchAt h _ => h.wf
  | .stop h mode x => h.wf && decide (mode < 256) && decide (x < 2 ^ 32)
  | .query h => h.wf
  | .setWakeBudget h ns _ => h.wf && decide (ns < 2 ^ 32)
  | .setPowerLimit h watts => h.wf && decide (watts < 2 ^ 16)
  | .setPowerState h state => h.wf && decide (state < 256)
  | .setPowerSlice h target die cluster slice => h.wf && decide (target < 256) && decide (die < 2) && decide (cluster < 32) && decide (slice < 4)
  | .attest h nonce => h.wf && decide (nonce.length = 32)
  | .topologyBoard h apt offset len => h.wf && decide (apt < 256) && decide (offset < 2 ^ 32) && decide (len < 2 ^ 32)
  | .topologySystem h apt offset len => h.wf && decide (apt < 256) && decide (offset < 2 ^ 32) && decide (len < 2 ^ 32)
  | .topologySchedule h apt offset len => h.wf && decide (apt < 256) && decide (offset < 2 ^ 32) && decide (len < 2 ^ 32)
  | .epoch h dies => h.wf && decide (dies < 4)
  | .scalarInstruction at_ _ _ => at_.wf
  | .stream at_ f => at_.wf && f.wf
  | .stationaryLoadNormal at_ f => at_.wf && f.wf
  | .stationaryLoadTransposed at_ f => at_.wf && f.wf
  | .cnvSet at_ f => at_.wf && f.wf
  | .tload at_ f => at_.wf && f.wf
  | .add at_ f => at_.wf && f.wf
  | .sub at_ f => at_.wf && f.wf
  | .mul at_ f => at_.wf && f.wf
  | .fma at_ f => at_.wf && f.wf
  | .max at_ f => at_.wf && f.wf
  | .min at_ f => at_.wf && f.wf
  | .exp at_ f => at_.wf && f.wf
  | .rcp at_ f => at_.wf && f.wf
  | .rsq at_ f => at_.wf && f.wf
  | .gelu at_ f => at_.wf && f.wf
  | .silu at_ f => at_.wf && f.wf
  | .rsum at_ f => at_.wf && f.wf
  | .rmax at_ f => at_.wf && f.wf
  | .smxi at_ f => at_.wf && f.wf
  | .smxs at_ f => at_.wf && f.wf
  | .smxn at_ f => at_.wf && f.wf
  | .rope at_ f => at_.wf && f.wf
  | .vld at_ f => at_.wf && f.wf
  | .vst at_ f => at_.wf && f.wf
  | .rtld at_ f => at_.wf && f.wf
  | .copy at_ f => at_.wf && f.wf
  | .fill at_ f => at_.wf && f.wf
  | .d2s at_ f => at_.wf && f.wf
  | .s2d at_ f => at_.wf && f.wf
  | .send at_ f => at_.wf && f.wf
  | .recv at_ f => at_.wf && f.wf
  | .flagSet at_ f => at_.wf && f.wf
  | .flagClr at_ f => at_.wf && f.wf
  | .waits at_ f => at_.wf && f.wf
  | .waitc at_ f => at_.wf && f.wf
  | .flagCnt at_ f => at_.wf && f.wf
  | .arrive at_ f => at_.wf && f.wf
  | .topk at_ f => at_.wf && f.wf
  | .ixld at_ f => at_.wf && f.wf
  | .gather at_ f => at_.wf && f.wf
  | .scatter at_ f => at_.wf && f.wf
  | .paramSet at_ f => at_.wf && f.wf
  | .paramAddi at_ f => at_.wf && f.wf
  | .mova at_ f => at_.wf && f.wf
  | .loop at_ w => at_.wf && w.wf
  | .endProgram at_ => at_.wf
  | .idleLine at_ rep => at_.wf && decide (rep < 2 ^ 16)
  | .waitComplete at_ => at_.wf
  | .openWaitComplete at_ => at_.wf
  | .waitTimeout at_ => at_.wf
  | .remoteFlagApply die phys => decide (die < 2) && decide (phys < 24)
  | .barrierRelease tenant barrier => decide (tenant < 256) && decide (barrier < 256)
  | .runComplete tenant => decide (tenant < 256)
  | .launchWakeStart tenant => decide (tenant < 256)
  | .gateAnnounce tenant => decide (tenant < 256)
  | .gateStart region tenant => decide (region < 8) && decide (tenant < 256)
  | .exposureArrival tenant => decide (tenant < 256)
  | .stampReceive tenant slot exp_ _ => decide (tenant < 256) && decide (slot < 16) && decide (exp_ < 2 ^ 32)
  | .regionBeatBegin region _ => decide (region < 8)
  | .droopStretch region monitor slack => decide (region < 8) && decide (monitor < 8) && decide (slack < 2 ^ 16)
  | .governorWindow region smin monitor => decide (region < 8) && decide (smin < 2 ^ 16) && decide (monitor < 8)
  | .voltageGrant region => decide (region < 8)
  | .rateShortfall tenant region span => decide (tenant < 256) && decide (region < 8) && decide (span < 2 ^ 32)
  | .emergencyBegin cause => decide (cause < 32)
  | .emergencyDutyStep => true
  | .thermalTrip die sensor => decide (die < 2) && decide (sensor < 256)
  | .railFault rail _ => decide (rail < 4)
  | .leaderChoice _ => true
  | .leaderTimeout _ => true
  | .ptpMessage offset => offset.wf
  | .linkSignalDetect die link => decide (die < 2) && decide (link < 24)
  | .linkLock die link _ _ => decide (die < 2) && decide (link < 24)
  | .linkSignalTimeout die link => decide (die < 2) && decide (link < 24)
  | .linkIdentEvaluate die link r => decide (die < 2) && decide (link < 24) && r.wf
  | .linkIdentTimeout die link => decide (die < 2) && decide (link < 24)
  | .linkLeaveUp die link _ => decide (die < 2) && decide (link < 24)
  | .linkRequeueTimeout die link => decide (die < 2) && decide (link < 24)
  | .linkFrameReceive die link _ => decide (die < 2) && decide (link < 24)
  | .linkSchedConsume die link => decide (die < 2) && decide (link < 24)
  | .flagopReceive die link => decide (die < 2) && decide (link < 24)
  | .haltReceive die link => decide (die < 2) && decide (link < 24)
  | .ephemerisSwitch die phys _ => decide (die < 2) && decide (phys < 24)
  | .schedOriginCheck die seq _ _ _ => decide (die < 2) && decide (seq < 2 ^ 32)
  | .unschedForward die phys lane => decide (die < 2) && decide (phys < 24) && decide (lane < 16)
  | .bnetWriteArrive die phys => decide (die < 2) && decide (phys < 24)
  | .bnetReadArrive die phys => decide (die < 2) && decide (phys < 24)
  | .bnetRdataArrive die src => decide (die < 2) && decide (src < 64)
  | .bnetWdoneArrive die src => decide (die < 2) && decide (src < 64)
  | .trailingRelease die phys => decide (die < 2) && decide (phys < 24)
  | .unschedSliceAccess die phys slice => decide (die < 2) && decide (phys < 24) && decide (slice < 4)
  | .epochFlip die => decide (die < 2)
  | .epochDrained die => decide (die < 2)
  | .epochDrainTimeout die => decide (die < 2)
  | .spadPwrWrite a die cluster slice _ => a.wf && decide (die < 2) && decide (cluster < 32) && decide (slice < 4)
  | .drainProbeArrive die phys slice src => decide (die < 2) && decide (phys < 24) && decide (slice < 4) && decide (src < 64)
  | .sliceDrainComplete die phys slice => decide (die < 2) && decide (phys < 24) && decide (slice < 4)
  | .sliceDrainTimeout die phys slice => decide (die < 2) && decide (phys < 24) && decide (slice < 4)
  | .sliceCloseDone die phys slice => decide (die < 2) && decide (phys < 24) && decide (slice < 4)
  | .sliceOpenDone die phys slice => decide (die < 2) && decide (phys < 24) && decide (slice < 4)
  | .scrubRead die phys slice => decide (die < 2) && decide (phys < 24) && decide (slice < 4)
  | .scrubWriteback die phys slice => decide (die < 2) && decide (phys < 24) && decide (slice < 4)
  | .bnetEwdataHiWrite a die cluster _ => a.wf && decide (die < 2) && decide (cluster < 32)
  | .bnetRtdataWrite a die cluster _ => a.wf && decide (die < 2) && decide (cluster < 32)
  | .seqWinWrite a die cluster _ _ => a.wf && decide (die < 2) && decide (cluster < 32)
  | .tenApLocWrite a die _ => a.wf && decide (die < 2)
  | .tenApSizeWrite a die _ => a.wf && decide (die < 2)
  | .ethCtlModeWrite a _ => a.wf
  | .clkGovWrite a die _ => a.wf && decide (die < 2)
  | .lnkCtlRetrain a die link => a.wf && decide (die < 2) && decide (link < 24)
  | .lnkCtlEn a die link _ => a.wf && decide (die < 2) && decide (link < 24)
  | .snetFopSet a die cluster flag owner => a.wf && decide (die < 2) && decide (cluster < 32) && decide (flag < 256) && decide (owner < 256)
  | .snetFopClr a die cluster flag owner => a.wf && decide (die < 2) && decide (cluster < 32) && decide (flag < 256) && decide (owner < 256)
  | .snetFopCnt a die cluster flag owner => a.wf && decide (die < 2) && decide (cluster < 32) && decide (flag < 256) && decide (owner < 256)
  | .registerWrite a addr len _ => a.wf && decide (addr < 2 ^ 48) && decide (len < 2 ^ 32)
  | .readClear a addr len => a.wf && decide (addr < 2 ^ 48) && decide (len < 2 ^ 32)
  | .timeSidLoRead a die => a.wf && decide (die < 2)
  | .timeTBeatLoRead a die => a.wf && decide (die < 2)
  | .mxaColsLoRead a die cluster arr => a.wf && decide (die < 2) && decide (cluster < 32) && decide (arr < 2)
  | .bnetEwdataLoRead a die cluster => a.wf && decide (die < 2) && decide (cluster < 32)
  | .bnetSflitLoRead a die cluster => a.wf && decide (die < 2) && decide (cluster < 32)
  | .lnkPserLoRead a die link => a.wf && decide (die < 2) && decide (link < 24)
  | .tenObsS0LoRead a die => a.wf && decide (die < 2)
  | .pwrEnergyLoRead a die => a.wf && decide (die < 2)
  | .kprMdataRead a die => a.wf && decide (die < 2)
  | .fltRecRead a die => a.wf && decide (die < 2)
  | .fltTRunRead a die => a.wf && decide (die < 2)
  | .hostDwinWrite a die cluster offset _ => a.wf && decide (die < 2) && decide (cluster < 32) && decide (offset < 2 ^ 32)
  | .hostDwinRead a die cluster offset len => a.wf && decide (die < 2) && decide (cluster < 32) && decide (offset < 2 ^ 32) && decide (len < 2 ^ 32)
  | .octPacketReceive p => p.wf
  | .octRetransmit tenant seq => decide (tenant < 256) && decide (seq < 2 ^ 32)
  | .octWriteComplete tenant => decide (tenant < 256)
  | .octReadComplete tenant => decide (tenant < 256)
  | .scaleoutEgress die => decide (die < 2)
  | .scaleoutReceive tenant d _ => decide (tenant < 256) && d.wf
  | .peerHaltReceive tenant slot board exp_ status => decide (tenant < 256) && decide (slot < 16) && decide (board < 4096) && decide (exp_ < 2 ^ 32) && decide (status < 256)
  | .ethLinkDown half => decide (half < 2)
  | .ethRetrainDone _ _ => true
  | .idleEnterPoised => true
  | .idleEnterRetained => true
  | .wakeExit => true
  | .exitComplete ns => decide (ns < 2 ^ 32)
  | .sparingOccult die phys trigger => decide (die < 2) && decide (phys < 24) && decide (trigger < 16)
  | .routerOut die phys trigger => decide (die < 2) && decide (phys < 24) && decide (trigger < 16)
  | .obsSlotStart => true
  | .scheduleEffect => true
  | .almanacWatchdog => true
  | .meridianWatchdog => true
  | .pwrgdFall => true
  | .resetAssert => true
  | .resetRelease straps => decide (straps < 64)
  | .refAonLoss => true
  | .refEthLoss => true
  | .refUlbLoss die => decide (die < 2)
  | .portModeSearch => true
  | .bootreqTimeout => true
  | .bootObjectReceive _ => true
  | .selfTestComplete _ _ _ => true
  | .tapReset => true
  | .idcode => true
  | .samplePreload => true
  | .extest => true
  | .clamp => true
  | .highz => true
  | .extestPulse => true
  | .extestTrain => true
  | .bypass => true
  | .siderealCounterAdvance => true
  | .linkFrameSend die link => decide (die < 2) && decide (link < 24)
  | .linkSignalRetry die link => decide (die < 2) && decide (link < 24)
  | .linkTransmitterRestart die link => decide (die < 2) && decide (link < 24)
  | .entryComplete => true
  | .emergencyEnd => true
  | .vddAonLoss => true
  | .pwrgdRise straps => decide (straps < 64)
  | .refEthReturn => true
  | .managementCoreException => true
  | .arpNdEchoFrame frame => frame.wf

/-- The place a slot or a line issues at; none for a command of another kind. -/
def Instr.site : Instr → Option Issue
  | .hello _ _ _ => none
  | .openTenant _ _ => none
  | .close _ _ => none
  | .write _ _ _ => none
  | .read _ _ => none
  | .loadPlate _ _ _ _ => none
  | .bind _ _ _ _ => none
  | .patch _ _ _ => none
  | .arm _ => none
  | .launchAt _ _ => none
  | .stop _ _ _ => none
  | .query _ => none
  | .setWakeBudget _ _ _ => none
  | .setPowerLimit _ _ => none
  | .setPowerState _ _ => none
  | .setPowerSlice _ _ _ _ _ => none
  | .attest _ _ => none
  | .topologyBoard _ _ _ _ => none
  | .topologySystem _ _ _ _ => none
  | .topologySchedule _ _ _ _ => none
  | .epoch _ _ => none
  | .scalarInstruction at_ _ _ => some at_
  | .stream at_ _ => some at_
  | .stationaryLoadNormal at_ _ => some at_
  | .stationaryLoadTransposed at_ _ => some at_
  | .cnvSet at_ _ => some at_
  | .tload at_ _ => some at_
  | .add at_ _ => some at_
  | .sub at_ _ => some at_
  | .mul at_ _ => some at_
  | .fma at_ _ => some at_
  | .max at_ _ => some at_
  | .min at_ _ => some at_
  | .exp at_ _ => some at_
  | .rcp at_ _ => some at_
  | .rsq at_ _ => some at_
  | .gelu at_ _ => some at_
  | .silu at_ _ => some at_
  | .rsum at_ _ => some at_
  | .rmax at_ _ => some at_
  | .smxi at_ _ => some at_
  | .smxs at_ _ => some at_
  | .smxn at_ _ => some at_
  | .rope at_ _ => some at_
  | .vld at_ _ => some at_
  | .vst at_ _ => some at_
  | .rtld at_ _ => some at_
  | .copy at_ _ => some at_
  | .fill at_ _ => some at_
  | .d2s at_ _ => some at_
  | .s2d at_ _ => some at_
  | .send at_ _ => some at_
  | .recv at_ _ => some at_
  | .flagSet at_ _ => some at_
  | .flagClr at_ _ => some at_
  | .waits at_ _ => some at_
  | .waitc at_ _ => some at_
  | .flagCnt at_ _ => some at_
  | .arrive at_ _ => some at_
  | .topk at_ _ => some at_
  | .ixld at_ _ => some at_
  | .gather at_ _ => some at_
  | .scatter at_ _ => some at_
  | .paramSet at_ _ => some at_
  | .paramAddi at_ _ => some at_
  | .mova at_ _ => some at_
  | .loop at_ _ => some at_
  | .endProgram at_ => some at_
  | .idleLine at_ _ => some at_
  | .waitComplete at_ => some at_
  | .openWaitComplete at_ => some at_
  | .waitTimeout at_ => some at_
  | .remoteFlagApply _ _ => none
  | .barrierRelease _ _ => none
  | .runComplete _ => none
  | .launchWakeStart _ => none
  | .gateAnnounce _ => none
  | .gateStart _ _ => none
  | .exposureArrival _ => none
  | .stampReceive _ _ _ _ => none
  | .regionBeatBegin _ _ => none
  | .droopStretch _ _ _ => none
  | .governorWindow _ _ _ => none
  | .voltageGrant _ => none
  | .rateShortfall _ _ _ => none
  | .emergencyBegin _ => none
  | .emergencyDutyStep => none
  | .thermalTrip _ _ => none
  | .railFault _ _ => none
  | .leaderChoice _ => none
  | .leaderTimeout _ => none
  | .ptpMessage _ => none
  | .linkSignalDetect _ _ => none
  | .linkLock _ _ _ _ => none
  | .linkSignalTimeout _ _ => none
  | .linkIdentEvaluate _ _ _ => none
  | .linkIdentTimeout _ _ => none
  | .linkLeaveUp _ _ _ => none
  | .linkRequeueTimeout _ _ => none
  | .linkFrameReceive _ _ _ => none
  | .linkSchedConsume _ _ => none
  | .flagopReceive _ _ => none
  | .haltReceive _ _ => none
  | .ephemerisSwitch _ _ _ => none
  | .schedOriginCheck _ _ _ _ _ => none
  | .unschedForward _ _ _ => none
  | .bnetWriteArrive _ _ => none
  | .bnetReadArrive _ _ => none
  | .bnetRdataArrive _ _ => none
  | .bnetWdoneArrive _ _ => none
  | .trailingRelease _ _ => none
  | .unschedSliceAccess _ _ _ => none
  | .epochFlip _ => none
  | .epochDrained _ => none
  | .epochDrainTimeout _ => none
  | .spadPwrWrite _ _ _ _ _ => none
  | .drainProbeArrive _ _ _ _ => none
  | .sliceDrainComplete _ _ _ => none
  | .sliceDrainTimeout _ _ _ => none
  | .sliceCloseDone _ _ _ => none
  | .sliceOpenDone _ _ _ => none
  | .scrubRead _ _ _ => none
  | .scrubWriteback _ _ _ => none
  | .bnetEwdataHiWrite _ _ _ _ => none
  | .bnetRtdataWrite _ _ _ _ => none
  | .seqWinWrite _ _ _ _ _ => none
  | .tenApLocWrite _ _ _ => none
  | .tenApSizeWrite _ _ _ => none
  | .ethCtlModeWrite _ _ => none
  | .clkGovWrite _ _ _ => none
  | .lnkCtlRetrain _ _ _ => none
  | .lnkCtlEn _ _ _ _ => none
  | .snetFopSet _ _ _ _ _ => none
  | .snetFopClr _ _ _ _ _ => none
  | .snetFopCnt _ _ _ _ _ => none
  | .registerWrite _ _ _ _ => none
  | .readClear _ _ _ => none
  | .timeSidLoRead _ _ => none
  | .timeTBeatLoRead _ _ => none
  | .mxaColsLoRead _ _ _ _ => none
  | .bnetEwdataLoRead _ _ _ => none
  | .bnetSflitLoRead _ _ _ => none
  | .lnkPserLoRead _ _ _ => none
  | .tenObsS0LoRead _ _ => none
  | .pwrEnergyLoRead _ _ => none
  | .kprMdataRead _ _ => none
  | .fltRecRead _ _ => none
  | .fltTRunRead _ _ => none
  | .hostDwinWrite _ _ _ _ _ => none
  | .hostDwinRead _ _ _ _ _ => none
  | .octPacketReceive _ => none
  | .octRetransmit _ _ => none
  | .octWriteComplete _ => none
  | .octReadComplete _ => none
  | .scaleoutEgress _ => none
  | .scaleoutReceive _ _ _ => none
  | .peerHaltReceive _ _ _ _ _ => none
  | .ethLinkDown _ => none
  | .ethRetrainDone _ _ => none
  | .idleEnterPoised => none
  | .idleEnterRetained => none
  | .wakeExit => none
  | .exitComplete _ => none
  | .sparingOccult _ _ _ => none
  | .routerOut _ _ _ => none
  | .obsSlotStart => none
  | .scheduleEffect => none
  | .almanacWatchdog => none
  | .meridianWatchdog => none
  | .pwrgdFall => none
  | .resetAssert => none
  | .resetRelease _ => none
  | .refAonLoss => none
  | .refEthLoss => none
  | .refUlbLoss _ => none
  | .portModeSearch => none
  | .bootreqTimeout => none
  | .bootObjectReceive _ => none
  | .selfTestComplete _ _ _ => none
  | .tapReset => none
  | .idcode => none
  | .samplePreload => none
  | .extest => none
  | .clamp => none
  | .highz => none
  | .extestPulse => none
  | .extestTrain => none
  | .bypass => none
  | .siderealCounterAdvance => none
  | .linkFrameSend _ _ => none
  | .linkSignalRetry _ _ => none
  | .linkTransmitterRestart _ _ => none
  | .entryComplete => none
  | .emergencyEnd => none
  | .vddAonLoss => none
  | .pwrgdRise _ => none
  | .refEthReturn => none
  | .managementCoreException => none
  | .arpNdEchoFrame _ => none

end Sys2Proof
end

