-- ==== Sys2Proof/Safety.lean ====
section
/-!
DEFINITION. What the claims are stated in: the canonical form of memory, what no command changes of the part, and the
frames of commands.
-/

namespace Sys2Proof.Machine

/-- The memories of a cluster, scratchpad, data SRAM and line store, are in canonical form: addresses strictly rising, and
no byte listed that an unlisted address reads as. -/
def Cluster.memWf (c : Cluster) : Bool := Tab.wf 0 c.spad && Tab.wf 0 c.dsram && Tab.wf 0 c.lines

/-- Every memory of the package is in canonical form. -/
def Memory.wf (s : State) : Bool := s.clusters.all fun e => e.2.memWf

/-- What can only advance of the persistent material (R383, R391): everything but the owner is fixed, FWMIN does not
fall, and no revocation bit clears. -/
def Part.Advances (p q : Part) : Prop :=
  { q with owner := p.owner, fwmin := p.fwmin, revoked := p.revoked } = p ∧ p.fwmin ≤ q.fwmin ∧
    p.revoked &&& q.revoked = p.revoked

/-- The invariant of the package started on a part: its part is that part, advanced. -/
def State.Inv (p : Part) (s : State) : Prop := p.Advances s.part

/-- A command changes nothing but clusters, and of these one at most. -/
def State.OnlyCluster (s t : State) (die phys : Nat) : Prop :=
  t = { s with clusters := t.clusters } ∧
    ∀ d p, clKey d p ≠ clKey die phys → t.cluster d p = s.cluster d p

/-- A command changes nothing but links, and of these one at most. -/
def State.OnlyLink (s t : State) (die link : Nat) : Prop :=
  t = { s with links := t.links } ∧ ∀ d l, linkKey d l ≠ linkKey die link → t.link d l = s.link d l

/-- A command changes nothing but tenants, and of these one at most. -/
def State.OnlyTenant (s t : State) (n : Nat) : Prop :=
  t = { s with tenants := t.tenants } ∧ ∀ u, u ≠ n → t.tenant u = s.tenant u

/-- A command changes nothing but regions, and of these one at most. -/
def State.OnlyRegion (s t : State) (n : Nat) : Prop :=
  t = { s with regions := t.regions } ∧ ∀ r, r ≠ n → t.region r = s.region r

/-- Nothing changes that a reader sees. -/
def State.Alike (s t : State) : Prop :=
  t = { s with clusters := t.clusters } ∧ ∀ d p, t.cluster d p = s.cluster d p

/-- No word of a cluster's slices is in error, and nothing of an access is left to record. -/
def Cluster.clean (c : Cluster) : Prop :=
  ∀ n, (c.slice n).ce = [] ∧ (c.slice n).ue = [] ∧ (c.slice n).eccLog = []

/-- What changes the context at a place alone: nothing else of its cluster, and nothing else of the package. -/
def State.CtxFrame (s t : State) (a : Issue) : Prop :=
  s.OnlyCluster t a.die a.phys ∧
  t.cluster a.die a.phys = { s.cluster a.die a.phys with ctxs := (t.cluster a.die a.phys).ctxs } ∧
  ∀ n, n ≠ a.ctx → (t.cluster a.die a.phys).ctx n = (s.cluster a.die a.phys).ctx n

/-- What a slot that issues at a place may change: of one cluster the uses of its ports and one context, of that context
the results due and the slots under way; nothing else of the package. -/
def State.SlotFrame (s t : State) (a : Issue) : Prop :=
  s.OnlyCluster t a.die a.phys ∧
  (let c := s.cluster a.die a.phys
   let c' := t.cluster a.die a.phys
   c' = { c with ports := c'.ports, dport := c'.dport, ctxs := c'.ctxs } ∧ ∀ n, n ≠ a.ctx → c'.ctx n = c.ctx n) ∧
  t.ctxAt a = { s.ctxAt a with commits := (t.ctxAt a).commits, jobs := (t.ctxAt a).jobs }

/-- After a slot the context's results due are those before and `xs`, its slots under way those before and `js`. -/
def State.Issued (s t : State) (a : Issue) (xs : List (Nat × Commit)) (js : List Task) : Prop :=
  (t.ctxAt a).commits = (s.ctxAt a).commits ++ xs ∧ (t.ctxAt a).jobs = (s.ctxAt a).jobs ++ js

/-- A slot's further beats: the task that stands in the context when the slot has more beats than one. -/
def Issuer.task (i : Issuer) (k : Ctx) (beats : Nat) (work : Work) (got : List Byte) : List Task :=
  if beats ≤ 1 then [] else [{ issued := i.beat, beats := beats, params := k.params, work := work, got := got }]

/-- A command changes nothing but routers, and of these one at most. -/
def State.OnlyRouter (s t : State) (die phys : Nat) : Prop :=
  t = { s with routers := t.routers } ∧ ∀ d p, clKey d p ≠ clKey die phys → t.router d p = s.router d p

/-- A command changes nothing but one slice of a cluster. -/
def State.OnlySlice (s t : State) (die phys n : Nat) : Prop :=
  s.OnlyCluster t die phys ∧ t.cluster die phys = (s.cluster die phys).setSlice n ((t.cluster die phys).slice n)

/-- A run that a halt of a beat has reached: it has ended, or ends on that beat or an earlier one. -/
def State.HaltedBy (t : State) (tenant beat : Nat) : Prop :=
  (t.tenant tenant).st = .halted ∨
    ∃ r x, (t.tenant tenant).run = some r ∧ r.halting = some x ∧ x.h ≤ beat

/-- A host command of a tenant can run now (R284, R301, R372, R374): the package is not Off, the tenant is not Closed, no
earlier command of the tenant is in progress, and one that needs the fabric finds the package Active. -/
def State.Takes (s : State) (h : CmdHead) (fabric : Bool) : Prop :=
  s.power.st ≠ .off ∧ (s.tenant h.tenant).st ≠ .closed ∧ (s.tenant h.tenant).xfer = none ∧
    (s.tenant h.tenant).stopping = none ∧ (fabric = true → s.power.st = .active ∧ s.power.moving = false)

/-- A host command stands at the front of its tenant's queue (R284), its payload spelled as R285 and R300 lay it out. -/
def State.Asks (s : State) (h : CmdHead) (f : CmdForm) : Prop :=
  ∃ bs, s.front h f.code = some bs ∧ f.reads (bs.drop 8) = true ∧ f.spelled h.tag bs = true

/-- A completion record with a payload is on its way in the session whose turn it was. -/
def State.Answers (s t : State) (h : CmdHead) (payload : List Byte) : Prop :=
  ∀ x, (s.tenant h.tenant).turn = some x →
    ∃ y ∈ (t.tenant h.tenant).sessions, y.id = x.id ∧ ∃ p ∈ y.unacked, p.type = 2 ∧ x.txseq < p.seq ∧ p.payload = payload

/-- The head of a completion record without a check value. -/
def rspOf (h : CmdHead) (st : Status) : List Byte := rspHead h.tag st none 0 0

/-- A command does nothing but send its completion record, with a payload. -/
def State.Replies (s t : State) (h : CmdHead) (payload : List Byte) : Prop :=
  s.OnlyTenant t h.tenant ∧ t.tenant h.tenant = { s.tenant h.tenant with
    session := (t.tenant h.tenant).session, opening := (t.tenant h.tenant).opening } ∧ s.Answers t h payload

/-- The events that end a wait, which happen where a wait holds the line. -/
def isWaitEvent (c : Instr) : Bool :=
  match c with
  | .waitComplete _ => true
  | .openWaitComplete _ => true
  | .waitTimeout _ => true
  | _ => false

/-- The plan a memory slot is held to when it issues: what it may touch and on which beats. -/
def planOf (c : Instr) (s : State) (i : Issuer) : Option Plan :=
  let cat := s.catOf i.tenant
  match c with
  | .stream a f =>
    let x := (s.cluster a.die a.phys).arr f.arr
    some (streamPlan (s.ctxAt a) f (x.bank f.tb).fmt (x.setup.getD CnvSetup.init) cat)
  | .stationaryLoadNormal a f => some (loadPlan (s.ctxAt a) false f)
  | .stationaryLoadTransposed a f => some (loadPlan (s.ctxAt a) true f)
  | .tload a f => some (tloadPlan (s.ctxAt a) f)
  | .vld a f => some (vmemPlan (s.ctxAt a) 0x20 f cat)
  | .vst a f => some (vmemPlan (s.ctxAt a) 0x21 f cat)
  | .rtld a f => some (vmemPlan (s.ctxAt a) 0x22 f cat)
  | .copy a f => some (storePlan (s.ctxAt a) 1 f)
  | .fill a f => some (storePlan (s.ctxAt a) 2 f)
  | .d2s a f => some (storePlan (s.ctxAt a) 3 f)
  | .s2d a f => some (storePlan (s.ctxAt a) 4 f)
  | .send a f => some (bulkPlan (s.ctxAt a) 1 f)
  | .recv a f => some (bulkPlan (s.ctxAt a) 2 f)
  | .topk a f => some (topkPlan (s.ctxAt a) f cat)
  | .ixld a f => some (ixldPlan (s.ctxAt a) f cat)
  | .gather a f => some (gatherPlan (s.ctxAt a) f cat)
  | .scatter a f => some (scatterPlan (s.ctxAt a) f cat)
  | _ => none

/-- A slot whose operation and fields are within the ranges its encoding rule gives. -/
def Slot.inRange : Slot → Bool
  | .scalar _ _ => true
  | .stream f => f.wf
  | .load op f => (op = 1 || op = 2) && f.wf
  | .cnvSet f => f.wf
  | .tload f => f.wf
  | .vec op f => vecOps.contains op && f.wf
  | .vmem op f => 0x20 ≤ op && op ≤ 0x22 && f.wf
  | .store op f => 1 ≤ op && op ≤ 4 && f.wf
  | .bulk op f => (op = 1 || op = 2) && f.wf
  | .sync op f => 1 ≤ op && op ≤ 6 && f.wf
  | .topk f => f.wf
  | .ixld f => f.wf
  | .gather f => f.wf
  | .scatter f => f.wf
  | .param op f => 1 ≤ op && op ≤ 3 && f.wf

end Sys2Proof.Machine
end

