-- ==== Sys2Proof/Laws/Memory.lean ====
section
/-!
SUPPORT. The canonical form of memory: every operation on a cluster's memories keeps it, reset has it, and memories in the
form that read alike are equal.
-/

namespace Sys2Proof.Machine

theorem Cluster.memWf_iff (c : Cluster) :
    c.memWf = true ↔ Tab.wf 0 c.spad = true ∧ Tab.wf 0 c.dsram = true ∧ Tab.wf 0 c.lines = true := by
  simp [Cluster.memWf, and_assoc]

/-- A change that keeps the three memories keeps their form. -/
theorem Cluster.memWf_congr {c c' : Cluster} (h : c.memWf = true) (h1 : c'.spad = c.spad) (h2 : c'.dsram = c.dsram)
    (h3 : c'.lines = c.lines) : c'.memWf = true := by
  unfold Cluster.memWf at *; rw [h1, h2, h3]; exact h

theorem Cluster.memWf_init : Cluster.init.memWf = true := rfl

theorem Cluster.eccWrite_mem (whole : List Nat) (c : Cluster) (w : Nat) :
    (Cluster.eccWrite whole c w).spad = c.spad ∧ (Cluster.eccWrite whole c w).dsram = c.dsram ∧
      (Cluster.eccWrite whole c w).lines = c.lines := by
  unfold Cluster.eccWrite
  dsimp only
  split
  · simp
  · split
    · simp
    · split <;> simp

theorem Cluster.eccWrites_mem (whole ws : List Nat) : ∀ c : Cluster,
    (ws.foldl (Cluster.eccWrite whole) c).spad = c.spad ∧ (ws.foldl (Cluster.eccWrite whole) c).dsram = c.dsram ∧
      (ws.foldl (Cluster.eccWrite whole) c).lines = c.lines := by
  induction ws with
  | nil => intro c; exact ⟨rfl, rfl, rfl⟩
  | cons w ws ih =>
    intro c
    obtain ⟨a, b, d⟩ := ih (Cluster.eccWrite whole c w)
    obtain ⟨a', b', d'⟩ := Cluster.eccWrite_mem whole c w
    exact ⟨a.trans a', b.trans b', d.trans d'⟩

/-- What a write leaves in the scratchpad (R187): the bytes written, and every other byte as it was. -/
theorem Cluster.read_write (c : Cluster) (off : Nat) (bs : List Byte) (j : Nat) :
    Tab.get 0 (c.write off bs).spad j = if off ≤ j then bs.getD (j - off) (Tab.get 0 c.spad j) else Tab.get 0 c.spad j := by
  unfold Cluster.write
  simp only [Tab.get_setRun, (Cluster.eccWrites_mem _ _ c).1]

theorem Cluster.memWf_write (c : Cluster) (off : Nat) (bs : List Byte) (h : c.memWf = true) :
    (c.write off bs).memWf = true := by
  obtain ⟨h1, h2, h3⟩ := (c.memWf_iff).mp h
  obtain ⟨a, b, d⟩ := Cluster.eccWrites_mem (wholeWordsOf off bs.length) (wordsOf off bs.length) c
  refine (Cluster.memWf_iff _).mpr ⟨?_, ?_, ?_⟩
  · exact Tab.wf_setRun _ _ _ _ (by rw [a]; exact h1)
  · exact (congrArg (Tab.wf 0) b).trans h2
  · exact (congrArg (Tab.wf 0) d).trans h3

theorem Cluster.memWf_zero (c : Cluster) (lo len : Nat) (h : c.memWf = true) : (c.zero lo len).memWf = true := by
  obtain ⟨h1, h2, h3⟩ := (c.memWf_iff).mp h
  exact (Cluster.memWf_iff _).mpr ⟨Tab.wf_clearRange _ _ _ _ h1, h2, h3⟩

theorem Cluster.memWf_blank (c : Cluster) (i : Nat) (h : c.memWf = true) : (c.blank i).memWf = true :=
  c.memWf_zero _ _ h

theorem Cluster.memWf_writeData (c : Cluster) (k : Ctx) (off : Nat) (bs : List Byte) (h : c.memWf = true) :
    (c.writeData k off bs).memWf = true := by
  obtain ⟨h1, h2, h3⟩ := (c.memWf_iff).mp h
  exact (Cluster.memWf_iff _).mpr ⟨h1, Tab.wf_setRun _ _ _ _ h2, h3⟩

theorem Cluster.memWf_commitHost (c : Cluster) (beat : Nat) (h : c.memWf = true) : (c.commitHost beat).memWf = true := by
  obtain ⟨h1, h2, h3⟩ := (c.memWf_iff).mp h
  unfold Cluster.commitHost
  split
  · exact h
  · refine (Cluster.memWf_iff _).mpr ⟨h1, ?_, h3⟩
    show Tab.wf 0 (List.foldl _ _ _) = true
    generalize c.dwin = ws
    clear h
    suffices H : ∀ (m : Tab Byte), Tab.wf 0 m = true →
        Tab.wf 0 (ws.foldl (fun (m : Tab Byte) (w : Nat × List Byte) => Tab.setRun 0 m w.1 w.2) m) = true from H _ h2
    induction ws with
    | nil => intro m hm; exact hm
    | cons w ws ih => intro m hm; exact ih _ (Tab.wf_setRun _ _ _ _ hm)

/-- The line store takes a body in place of a window's old contents. -/
theorem Cluster.memWf_lines (c : Cluster) (lo hi at_ : Nat) (bs : List Byte) (h : c.memWf = true) :
    Cluster.memWf { c with lines := Tab.setRun 0 (Tab.clearRange c.lines lo hi) at_ bs } = true := by
  obtain ⟨h1, h2, h3⟩ := (c.memWf_iff).mp h
  exact (Cluster.memWf_iff _).mpr ⟨h1, h2, Tab.wf_setRun _ _ _ _ (Tab.wf_clearRange _ _ _ _ h3)⟩

/-! The package. -/

theorem Memory.wf_reset : Memory.wf State.reset = true := rfl

theorem Memory.wf_iff (s : State) : Memory.wf s = true ↔ ∀ e ∈ s.clusters, e.2.memWf = true := by
  simp [Memory.wf, List.all_eq_true]

/-- Every cluster of a package in the form is in it. -/
theorem Memory.wf_cluster {s : State} (h : Memory.wf s = true) (d p : Nat) : (s.cluster d p).memWf = true := by
  have H := (Memory.wf_iff s).mp h
  unfold State.cluster
  generalize s.clusters = t at H ⊢
  induction t with
  | nil => rfl
  | cons e t ih =>
    obtain ⟨k, c⟩ := e
    simp only [Tab.get]
    split
    · exact H _ (List.mem_cons_self ..)
    · exact ih fun e he => H e (List.mem_cons_of_mem _ he)

/-- Putting a cluster in the form keeps the package in it. -/
theorem Memory.wf_setCluster {s : State} (h : Memory.wf s = true) (d p : Nat) (c : Cluster) (hc : c.memWf = true) :
    Memory.wf (s.setCluster d p c) = true := by
  have H := (Memory.wf_iff s).mp h
  refine (Memory.wf_iff _).mpr fun e he => ?_
  have he : e ∈ Tab.set Cluster.init s.clusters (clKey d p) c := he
  unfold Tab.set at he
  split at he
  · exact H e (Tab.mem_erase _ _ _ he)
  · rcases Tab.mem_insert _ _ _ _ he with rfl | he
    · exact hc
    · exact H e he

theorem Memory.wf_modCluster {s : State} (h : Memory.wf s = true) (d p : Nat) (f : Cluster → Cluster)
    (hf : ∀ c, c.memWf = true → (f c).memWf = true) : Memory.wf (s.modCluster d p f) = true :=
  Memory.wf_setCluster h _ _ _ (hf _ (Memory.wf_cluster h d p))

/-- A change that keeps the clusters keeps the form. -/
theorem Memory.wf_congr {s t : State} (h : Memory.wf s = true) (e : t.clusters = s.clusters) : Memory.wf t = true := by
  unfold Memory.wf; rw [e]; exact h

/-- A change of every cluster that keeps the form of each. -/
theorem Memory.wf_map {s t : State} (h : Memory.wf s = true) (f : Nat × Cluster → Nat × Cluster)
    (e : t.clusters = s.clusters.map f) (hf : ∀ x, x.2.memWf = true → (f x).2.memWf = true) : Memory.wf t = true := by
  refine (Memory.wf_iff t).mpr fun x hx => ?_
  rw [e] at hx
  obtain ⟨y, hy, rfl⟩ := List.mem_map.mp hx
  exact hf y ((Memory.wf_iff s).mp h y hy)

end Sys2Proof.Machine
end

