-- ==== Sys2Proof/Laws/Slots.lean ====
section
/-!
SUPPORT. What the shared operations of the slots do: scanning a cluster without errors, taking ports, the checks at issue,
filing results and starting a slot of several beats.
-/

namespace Sys2Proof.Machine

/-! Nothing a reader sees changes. -/

theorem State.Alike.refl (s : State) : s.Alike s := ⟨rfl, fun _ _ => rfl⟩

theorem State.Alike.trans {s t u : State} (h : s.Alike t) (k : t.Alike u) : s.Alike u := by
  refine ⟨?_, fun d p => (k.2 d p).trans (h.2 d p)⟩
  rw [k.1, h.1]

/-- Writing back what a cluster reads as changes nothing that is seen. -/
theorem State.alike_setCluster (s : State) (d p : Nat) (c : Cluster) (h : c = s.cluster d p) :
    s.Alike (s.setCluster d p c) := by
  refine ⟨rfl, fun d' p' => ?_⟩
  by_cases e : clKey d' p' = clKey d p
  · subst h
    show Tab.get _ _ _ = Tab.get _ _ _
    rw [e]
    exact Tab.get_set_self ..
  · exact s.cluster_setCluster_ne c e

theorem State.Alike.ctxAt {s t : State} (h : s.Alike t) (a : Issue) : t.ctxAt a = s.ctxAt a := by
  simp [State.ctxAt, h.2]

theorem Cluster.slice_eq (c : Cluster) (n : Nat) : c.slice n = c.slice (if n < 3 then n else 3) := by
  match n with
  | 0 => rfl
  | 1 => rfl
  | 2 => rfl
  | _ + 3 => rfl

theorem Cluster.setSlice_slice (c : Cluster) (n : Nat) : c.setSlice n (c.slice n) = c := by
  match n with
  | 0 => rfl
  | 1 => rfl
  | 2 => rfl
  | _ + 3 => rfl

theorem Cluster.countCe_clean (c : Cluster) (h : c.clean) (off n : Nat) : c.countCe off n = c := by
  unfold Cluster.countCe
  induction wordsOf off n with
  | nil => rfl
  | cons w ws ih => simpa [(h (w / 2097152)).1] using ih

theorem Cluster.uesIn_clean (c : Cluster) (h : c.clean) (off n : Nat) : c.uesIn off n = [] := by
  unfold Cluster.uesIn
  simp [(h _).2.1]

theorem Cluster.countCe_ranges_clean (c : Cluster) (h : c.clean) (rs : List (Nat × Nat)) :
    rs.foldl (fun c x => c.countCe x.1 x.2) c = c := by
  induction rs with
  | nil => rfl
  | cons x rs ih => simpa [Cluster.countCe_clean c h] using ih

theorem State.eccFlush_clean (s : State) (d p : Nat) (t : Option Nat) (b g : Nat) (h : (s.cluster d p).clean) :
    s.Alike (s.eccFlush d p t b g) := by
  unfold State.eccFlush
  suffices H : ∀ (ns : List Nat) (u : State), s.Alike u → s.Alike (ns.foldl (fun s n =>
    let c := s.cluster d p
    let sl := c.slice n
    let s := s.setCluster d p (c.setSlice n { sl with eccLog := [] })
    sl.eccLog.foldl (fun s e =>
      let off := 8 * e.1 + n * 16777216
      if e.2 then (s.countUe1 d p n e.1 false).record d 1 0x13 t p b (BitVec.ofNat 64 (off + g)) false
      else (s.countCe1 d p n).record d 0 0x01 t p b (BitVec.ofNat 64 off) false) s) u) from H _ s (State.Alike.refl s)
  intro ns
  induction ns with
  | nil => intro u hu; exact hu
  | cons n ns ih =>
    intro u hu
    rw [List.foldl_cons]
    apply ih
    have hl : ((u.cluster d p).slice n).eccLog = [] := by rw [hu.2]; exact (h n).2.2
    have he : { (u.cluster d p).slice n with eccLog := [] } = (u.cluster d p).slice n := by rw [← hl]
    simp only [hl, List.foldl_nil, he]
    exact hu.trans (State.alike_setCluster _ _ _ _ (Cluster.setSlice_slice _ _))

/-- A scan of a cluster without errors changes nothing that is seen (R185, R186). -/
theorem State.scan_clean (s : State) (a : Issue) (i : Issuer) (rs : List (Nat × Nat))
    (h : (s.cluster a.die a.phys).clean) : s.Alike (s.scan a i rs) := by
  have none_ : ((rs.map fun x => (s.cluster a.die a.phys).uesIn x.1 x.2).flatten.eraseDups) = [] := by
    have e : (rs.map fun x => (s.cluster a.die a.phys).uesIn x.1 x.2).flatten = [] := by
      simp [Cluster.uesIn_clean _ h]
    rw [e]; rfl
  simp only [State.scan, Cluster.countCe_ranges_clean _ h, none_, List.foldl_nil]
  have k := State.alike_setCluster s a.die a.phys _ rfl
  exact k.trans (State.eccFlush_clean _ _ _ _ _ _ (by rw [k.2]; exact h))

/-! Frames. -/

theorem State.Alike.slotFrame {s t : State} (h : s.Alike t) (a : Issue) : s.SlotFrame t a := by
  refine ⟨⟨h.1, fun d p _ => h.2 d p⟩, ?_, ?_⟩
  · simp [h.2]
  · simp [State.ctxAt, h.2]

theorem State.SlotFrame.refl (s : State) (a : Issue) : s.SlotFrame s a := (State.Alike.refl s).slotFrame a

theorem State.SlotFrame.trans {s t u : State} {a : Issue} (h : s.SlotFrame t a) (k : t.SlotFrame u a) :
    s.SlotFrame u a := by
  obtain ⟨⟨h1, h2⟩, ⟨h3, h4⟩, h5⟩ := h
  obtain ⟨⟨k1, k2⟩, ⟨k3, k4⟩, k5⟩ := k
  refine ⟨⟨by rw [k1, h1], fun d p e => (k2 d p e).trans (h2 d p e)⟩, ⟨?_, fun n e => (k4 n e).trans (h4 n e)⟩, ?_⟩
  · rw [k3, h3]
  · rw [k5, h5]

/-- A change of one context changes nothing else. -/
theorem State.modCtx_frame (s : State) (a : Issue) (f : Ctx → Ctx) : s.CtxFrame (s.modCtx a f) a := by
  refine ⟨⟨rfl, fun d p e => s.cluster_modCluster_ne _ e⟩, ?_, fun n e => ?_⟩
  · simp [State.modCtx, Cluster.setCtx]
  · simp [State.modCtx, Cluster.ctx_setCtx_ne _ _ e]

theorem State.CtxFrame.trans {s t u : State} {a : Issue} (h : s.CtxFrame t a) (k : t.CtxFrame u a) : s.CtxFrame u a := by
  obtain ⟨⟨h1, h2⟩, h3, h4⟩ := h
  obtain ⟨⟨k1, k2⟩, k3, k4⟩ := k
  refine ⟨⟨by rw [k1, h1], fun d p e => (k2 d p e).trans (h2 d p e)⟩, ?_, fun n e => (k4 n e).trans (h4 n e)⟩
  rw [k3, h3]

theorem State.CtxFrame.done {s t : State} {a : Issue} (h : s.CtxFrame t a) : done s t = .next t := by
  unfold Machine.done; rw [h.1.1]

/-- A use of a port is all that taking one changes. -/
theorem State.usePort_frame (s : State) (a : Issue) (u : Use) :
    s.SlotFrame (s.usePort a.die a.phys u) a ∧ (s.usePort a.die a.phys u).ctxAt a = s.ctxAt a := by
  unfold State.usePort
  dsimp only
  split
  · exact ⟨State.SlotFrame.refl s a, rfl⟩
  · refine ⟨⟨⟨rfl, fun d p e => s.cluster_setCluster_ne _ e⟩, ⟨?_, ?_⟩, ?_⟩, ?_⟩ <;>
      simp [State.ctxAt, Cluster.ctx]

theorem State.useData_frame (s : State) (a : Issue) (m n : Nat) :
    s.SlotFrame (s.useData a m n) a ∧ (s.useData a m n).ctxAt a = s.ctxAt a := by
  unfold State.useData
  refine ⟨⟨⟨rfl, fun d p e => s.cluster_setCluster_ne _ e⟩, ⟨?_, ?_⟩, ?_⟩, ?_⟩ <;>
    simp [State.ctxAt, Cluster.ctx]

theorem State.usePorts_frame (a : Issue) (us : List Use) : ∀ s : State,
    s.SlotFrame (us.foldl (fun s u => s.usePort a.die a.phys u) s) a ∧
      (us.foldl (fun s u => s.usePort a.die a.phys u) s).ctxAt a = s.ctxAt a := by
  induction us with
  | nil => intro s; exact ⟨State.SlotFrame.refl s a, rfl⟩
  | cons u us ih =>
    intro s
    have h := s.usePort_frame a u
    have k := ih (s.usePort a.die a.phys u)
    exact ⟨h.1.trans k.1, k.2.trans h.2⟩

/-- Taking the ports of a plan changes nothing else of the package, and not the context. -/
theorem State.takePorts_frame (s : State) (a : Issue) (p : Plan) :
    s.SlotFrame (s.takePorts a p) a ∧ (s.takePorts a p).ctxAt a = s.ctxAt a := by
  have h := State.usePorts_frame a p.uses s
  unfold State.takePorts
  dsimp only
  split
  · exact ⟨h.1.trans (State.useData_frame _ _ _ _).1, (State.useData_frame _ _ _ _).2.trans h.2⟩
  · exact h

/-- Filing results changes nothing else. -/
theorem State.file_frame (s : State) (a : Issue) (xs : List (Nat × Commit)) : s.SlotFrame (s.file a xs) a := by
  refine ⟨⟨rfl, fun d p e => s.cluster_modCluster_ne _ e⟩, ⟨?_, fun n e => ?_⟩, ?_⟩
  · simp [State.file, State.modCtx, Cluster.setCtx]
  · simp [State.file, State.modCtx, Cluster.ctx_setCtx_ne _ _ e]
  · simp

/-- A slot whose checks pass runs, with its ports taken. -/
theorem State.guarded_passes (s : State) (a : Issue) (i : Issuer) (p : Plan) (go : State → State)
    (h : s.planFails a i p = none) : s.guarded a i p go = go (s.takePorts a p) := by
  unfold State.guarded; rw [h]

/-- A slot one of whose checks fails halts its plate with BOUNDS and does nothing else. -/
theorem State.guarded_fails (s : State) (a : Issue) (i : Issuer) (p : Plan) (go : State → State) (d : Nat × Int)
    (h : s.planFails a i p = some d) : s.guarded a i p go = s.issueBounds a i p.kind d.1 d.2 := by
  unfold State.guarded; rw [h]

theorem State.slot_some (s : State) (a : Issue) (i : Issuer) (go : Issuer → State) (h : s.issuer a = some i) :
    s.slot_ a go = go i := by unfold State.slot_; rw [h]

theorem State.slot_none (s : State) (a : Issue) (go : Issuer → State) (h : s.issuer a = none) : s.slot_ a go = s := by
  unfold State.slot_; rw [h]

/-- The answer of a command whose effect touches neither the queue nor the part. -/
theorem done_eq (s t : State) (h : t.pending = s.pending) (k : t.part = s.part) : done s t = .next t := by
  unfold done; rw [← h, ← k]

theorem State.SlotFrame.done {s t : State} {a : Issue} (h : s.SlotFrame t a) : done s t = .next t :=
  done_eq s t (by rw [h.1.1]) (by rw [h.1.1])

/-- Starting a slot of several beats: its first beat is run, and a task stands for the others. -/
theorem State.start_eq (s : State) (a : Issue) (i : Issuer) (n : Nat) (w : Work) (step : TaskBeat) (u : State) (j : Task)
    (h : step a i { issued := i.beat, beats := n, params := (s.ctxAt a).params, work := w, got := [] } s = (u, j)) :
    s.start a i n w step = if n ≤ 1 then u else u.modCtx a fun k => { k with jobs := k.jobs ++ [j] } := by
  unfold State.start; rw [h]

/-- Adding a task to a context changes nothing else. -/
theorem State.addTask_frame (s : State) (a : Issue) (j : Task) :
    s.SlotFrame (s.modCtx a fun k => { k with jobs := k.jobs ++ [j] }) a := by
  refine ⟨⟨rfl, fun d p e => s.cluster_modCluster_ne _ e⟩, ⟨?_, fun n e => ?_⟩, ?_⟩
  · simp [State.modCtx, Cluster.setCtx]
  · simp [State.modCtx, Cluster.ctx_setCtx_ne _ _ e]
  · simp

/-- A slot that files results from its first beat, on a state that reads like the one it issues in. -/
theorem State.start_files (s : State) (a : Issue) (i : Issuer) (n : Nat) (w : Work) (step : TaskBeat) (v : State) (j : Task)
    (xs : List (Nat × Commit)) (hv : s.Alike v)
    (h : step a i { issued := i.beat, beats := n, params := (s.ctxAt a).params, work := w, got := [] } s = (v.file a xs, j)) :
    s.SlotFrame (s.start a i n w step) a ∧
      s.Issued (s.start a i n w step) a xs (if n ≤ 1 then [] else [j]) := by
  rw [State.start_eq s a i n w step _ _ h]
  have f := (hv.slotFrame a).trans (v.file_frame a xs)
  split
  · exact ⟨f, by simp [hv.ctxAt], by simp [hv.ctxAt]⟩
  · exact ⟨f.trans (State.addTask_frame _ _ _), by simp [hv.ctxAt], by simp [hv.ctxAt]⟩

/-- What a frame leaves of the issuing cluster: all that a slot reads. -/
theorem State.SlotFrame.cluster {s t : State} {a : Issue} (h : s.SlotFrame t a) :
    (t.cluster a.die a.phys).spad = (s.cluster a.die a.phys).spad ∧
      (t.cluster a.die a.phys).dsram = (s.cluster a.die a.phys).dsram ∧
      (t.cluster a.die a.phys).xb = (s.cluster a.die a.phys).xb ∧
      (∀ n, (t.cluster a.die a.phys).arr n = (s.cluster a.die a.phys).arr n) ∧
      (∀ n, (t.cluster a.die a.phys).vcore n = (s.cluster a.die a.phys).vcore n) ∧
      (∀ n, (t.cluster a.die a.phys).slice n = (s.cluster a.die a.phys).slice n) := by
  have e := h.2.1.1
  rw [e]
  exact ⟨rfl, rfl, rfl, fun _ => rfl, fun _ => rfl, fun n => rfl⟩

theorem State.SlotFrame.clean {s t : State} {a : Issue} (h : s.SlotFrame t a) (c : (s.cluster a.die a.phys).clean) :
    (t.cluster a.die a.phys).clean := by
  intro n
  rw [h.cluster.2.2.2.2.2 n]
  exact c n

/-- A slot whose checks pass and whose first beat files results: it completes with its frame, the results on their way
and a task for its other beats. -/
theorem State.slot_files (s : State) (a : Issue) (i : Issuer) (p : Plan) (n : Nat) (w : Work) (step : TaskBeat)
    (xs : List (Nat × Commit)) (j : Task) (hi : s.issuer a = some i) (hp : s.planFails a i p = none)
    (h : ∀ v, s.SlotFrame v a → v.ctxAt a = s.ctxAt a → ∃ v', v.Alike v' ∧
      step a i { issued := i.beat, beats := n, params := (s.ctxAt a).params, work := w, got := [] } v = (v'.file a xs, j))
    (go : Issuer → State) (hg : go i = s.guarded a i p fun s => s.start a i n w step) :
    ∃ t, done s (s.slot_ a go) = .next t ∧ s.SlotFrame t a ∧ s.Issued t a xs (if n ≤ 1 then [] else [j]) := by
  rw [State.slot_some s a i go hi, hg, State.guarded_passes s a i p _ hp]
  obtain ⟨f, c⟩ := s.takePorts_frame a p
  obtain ⟨v', hv, hs⟩ := h _ f c
  obtain ⟨f', c1, c2⟩ := State.start_files (s.takePorts a p) a i n w step v' j xs hv (by rw [c]; exact hs)
  have F := f.trans f'
  exact ⟨_, F.done, F, by rw [c1, c], by rw [c2, c]⟩

theorem State.Alike.cluster {s t : State} (h : s.Alike t) (d p : Nat) : t.cluster d p = s.cluster d p := h.2 d p

end Sys2Proof.Machine
end

