-- ==== Sys2Proof/Certificates/Slice0/Obligations.lean ====
section
/-!
DEFINITION. The statements for the provers. Each says which rule of spec/ it formalises, or that it is derived. -/

open Sys2Proof Sys2Proof.Machine
/-! The queue, the answers and what is fixed. -/

/-- A step runs the command at the front of the queue on the state with the queue's rest. On an empty queue the
package idles (the model's choice, notes/assumptions/1.md). Where an event's condition does not hold nothing changes
(the model's choice, notes/assumptions/8.md). -/
def Obligations.StepRunsFrontCommand : Prop :=
  (∀ (c : Instr) (rest : List Instr) (s : State), s.pending = c :: rest → step s = exec c { s with pending := rest }) ∧
  (∀ s : State, s.pending = [] → step s = .next s)

/-- Every command answers a next state, whatever the state and its operands, and leaves the queue's rest as it is: no
command of the table is refused and none faults. -/
def Obligations.EveryCommandCompletes : Prop :=
  ∀ (c : Instr) (s : State), ∃ t, exec c s = .next t ∧ t.pending = s.pending

/-- R383, R384, R391: no step changes what is fixed of the part, lowers FWMIN or clears a revocation bit. Where an
event's condition does not hold nothing changes (the model's choice, notes/assumptions/8.md). -/
def Obligations.FusesOnlyAdvance : Prop :=
  ∀ (p : Part) (s s' : State), s.Inv p → step s = .next s' → s'.Inv p

/-- R388, R298, R194, R218, R260, R269, R420: after reset First Light stands at stage ID, every tenant is Closed,
every slice OFF, every flag clear with TH 1, every link DOWN with EN 1, no fault is recorded, no memory holds a byte
and no command waits. The invariant holds at reset, for the part the model is reset on (notes/assumptions/6.md). The
zeros of memory are the model's choice (notes/assumptions/26.md). -/
def Obligations.ResetState : Prop :=
  (State.reset.boot.stage = 0 ∧ State.reset.pending = [] ∧
  (∀ n, (State.reset.tenant n).st = .closed ∧ (State.reset.tenant n).run = none) ∧
  (∀ d p n, ((State.reset.cluster d p).slice n).st = .off ∧ ((State.reset.cluster d p).slice n).target = .off) ∧
  (∀ d p n, (State.reset.cluster d p).flag n = Flag.init ∧ Flag.init.s = false ∧ Flag.init.th = 1) ∧
  (∀ d l, (State.reset.link d l).st = .down ∧ (State.reset.link d l).en = true) ∧
  (∀ d, (State.reset.flt d).ring = [] ∧ (State.reset.flt d).worst = 7) ∧
  (∀ d p n, (State.reset.cluster d p).read n 1 = [0])) ∧
  (State.reset.Inv Part.init ∧ Memory.wf State.reset = true)

/-- R77, R74, R104, R124, R125, R137, R159, R164, R170, R172, R173: decoding the word of a slot that no rule refuses
gives the slot back, with every field at every value; and a word that decodes is that slot's word, so no reserved bit
is set. -/
def Obligations.SlotWordsRoundTrip : Prop :=
  (∀ x : Slot, x.inRange = true → x.reason = 0 → decodeSlot x.kind x.encode = .ok x) ∧
  (∀ (k w : Nat) (x : Slot), decodeSlot k w = .ok x → x.encode = w ∧ x.reason = 0)

/-- Words written out from the encodings of R74, R77, R104, R137, R156 and R164 decode to their slots and control
words, and a word with a reserved bit set or no operation decodes to none. -/
def Obligations.SlotWordsDecode : Prop :=
  decodeSlot 5 0x0000000201010081 = .ok (.load 1 ⟨0, 0, 2, 0, 1, 4, 32⟩) ∧
  decodeSlot 9 0x0000000000AA8001 = .ok (.cnvSet ⟨0, 0, 0, 0, 0, 0, 20, 21, 0, 0, 0, 0⟩) ∧
  decodeSlot 1 0x00003FF804903A21 = .ok (.stream ⟨0, 2, 0, 1, 7, 8, 9, 0, 2047, 0⟩) ∧
  decodeSlot 10 0x0000000F1FF34C01 = .ok (.topk ⟨0, 0, 0, 12, 13, 511, 15, 0, 0⟩) ∧
  decodeSlot 10 0x0000040F9E81E703 = .ok (.gather ⟨0, 0, 14, 15, 16, 15, 31, 32⟩) ∧
  decodeSlot 11 0x0000000440030002 = .ok (.param 2 ⟨0, 0, 3, 17408⟩) ∧
  decodeControl 0x0000000007000041 = .ok (.loop ⟨0, 1, 0, 7⟩) ∧
  decodeControl 0x2 = .ok .end_ ∧
  decodeSlot 5 0x8000000201010081 = .error 0x0302 ∧ decodeSlot 8 0x0 = .error 0x0302 ∧
  decodeControl 0x3 = .error 0x0301

/-! Slots. `s.issuer a = some i` says that a slot can issue at the place `a`, for the tenant and plate beat of `i`. -/

/-- R153, R158, R173, R314, R448: a slot can issue exactly where the package is Active, the place exists, its context is
assigned and the one its cluster runs, the context's tenant is Running in an exposure whose beats the region counts, the
beat in progress has not ended, no halt has taken effect before it, the program has not ended and no wait holds the line. A slot or line where nothing can
issue changes nothing (notes/assumptions/8.md). -/
def Obligations.WhereASlotIssues : Prop :=
  (∀ (a : Issue) (s : State) (i : Issuer),
    s.issuer a = some i ↔
      ∃ r, (s.tenant (s.ctxAt a).tenant).run = some r ∧
        a.die < 2 ∧ a.phys < 24 ∧ a.ctx < 16 ∧ s.power.st = .active ∧ (s.ctxAt a).valid = true ∧
        (s.cluster a.die a.phys).running = some a.ctx ∧ (s.tenant (s.ctxAt a).tenant).st = .running ∧
        (s.region (regionKey a.die a.phys)).ended = false ∧ r.phase = .inExposure ∧
        0 < Tab.get 0 r.beats (regionKey a.die a.phys) ∧ regionKey a.die a.phys ∉ r.done ∧
        (∀ x, r.halting = some x → Tab.get 0 r.beats (regionKey a.die a.phys) ≤ x.h) ∧
        (s.ctxAt a).ended = false ∧ (s.ctxAt a).wait = none ∧
        i = { tenant := (s.ctxAt a).tenant, beat := Tab.get 0 r.beats (regionKey a.die a.phys) - 1 }) ∧
  (∀ (c : Instr) (a : Issue) (s : State), c.site = some a → isWaitEvent c = false → s.issuer a = none →
    exec c s = .next s)

/-- R84, R107, R128, R145, R171, R162, R200: a slot one of whose checks fails reads and writes nothing. Its plate is
recorded under cause 0x10 and halts with BOUNDS on the beat of the issue, or stays with the earlier halt it already
has; no byte of any memory changes. R84, R180: a range passes its check when it lies in one aperture of the tenant on
the logical cluster that stands at the place, within one slice, at the alignment its slot asks for. An offset above
bit 25 fails its check (notes/assumptions/25.md). -/
def Obligations.FailedCheckHaltsWithBounds : Prop :=
  (∀ (a : Issue) (c : Instr) (p : Plan) (s : State) (i : Issuer) (d : Nat × Int),
    c.site = some a → s.issuer a = some i → planOf c s i = some p → s.planFails a i p = some d →
    ∃ t, exec c s = .next t ∧
      (t.flt a.die).cnt = Tab.modify 0 (s.flt a.die).cnt 0x10 (satAdd · 1) ∧
      (∀ d' q, (t.cluster d' q).spad = (s.cluster d' q).spad ∧ (t.cluster d' q).dsram = (s.cluster d' q).dsram) ∧
      ((t.tenant i.tenant).st = .halted ∨
        ∃ r x, (t.tenant i.tenant).run = some r ∧ r.halting = some x ∧ x.h ≤ i.beat)) ∧
  (∀ (s : State) (a : Issue) (tenant : Nat) (x : Span),
    s.spanOk a tenant x = true ↔
      ∃ l, s.logOf a.die a.phys = some l ∧ 0 ≤ x.off ∧
        (∃ p ∈ (s.tenant tenant).apertures, p.valid = true ∧ p.die = a.die ∧ p.cluster = l ∧
          p.slice * 16777216 + p.base * 4096 ≤ x.off.toNat ∧
          x.off.toNat + x.len ≤ p.slice * 16777216 + p.base * 4096 + p.size * 4096) ∧
        x.off.toNat + x.len ≤ (x.off.toNat / 16777216 + 1) * 16777216 ∧
        (x.align = 0 ∨ x.off.toNat % x.align = 0))

/-- R159, R160, R162, R163: a scalar slot whose two positions break no rule puts the results of both on their way,
each computed from the registers as they stood before the slot, and changes nothing else. R159, R160, R161: what one
position does. x0 reads as zero and is not written; a register result is due with the operation's latency; a store to
the data window is due on its beat. What each operation computes is RV32IMC as RISC-V gives it (presumed,
notes/assumptions/10.md). -/
def Obligations.ScalarSlotRuns : Prop :=
  (∀ (a : Issue) (p0 p1 : Word) (s : State) (i : Issuer) (e0 e1 : PosEffect),
    s.issuer a = some i →
    let c := s.cluster a.die a.phys
    let k := s.ctxAt a
    let run := posEffect c k (s.catOf i.tenant) i.beat (i.beat / s.explenOf i.tenant)
    run (decodePos p0) = .ok e0 → run (decodePos p1) = .ok e1 →
    ∃ t, exec (.scalarInstruction a p0 p1) s = .next t ∧ s.CtxFrame t a ∧
      t.ctxAt a = { k with pwrites := k.pwrites ++ e0.params ++ e1.params,
                           commits := k.commits ++ (e0.commits i.beat ++ e1.commits i.beat) }) ∧
  (∀ (c : Cluster) (k : Ctx) (cat beat exp : Nat),
    (∀ rd x y, rd ≠ 0 → ∃ e, posEffect c k cat beat exp (some (.alu .add rd x (.reg y))) = .ok e ∧
      e.commits beat = [(beat, .xreg rd (c.xreg x + c.xreg y))] ∧ e.params = []) ∧
    (∀ op x b, ∃ e, posEffect c k cat beat exp (some (.alu op 0 x b)) = .ok e ∧ e.commits beat = [] ∧ e.params = []) ∧
    (∀ x, ∃ e, posEffect c k 1 beat exp (some (.alu .div 5 x (.reg 0))) = .ok e ∧
      e.commits beat = [(beat + 17, .xreg 5 0xFFFFFFFF)]) ∧
    (∀ rs x (imm : Word), (c.xreg x + imm).toNat + 4 ≤ k.dsize * 1024 →
      ∃ e, posEffect c k cat beat exp (some (.store 4 rs x imm)) = .ok e ∧
        e.commits beat = [(beat, .data (c.xreg x + imm).toNat (wordBytes (c.xreg rs)) false)]) ∧
    (∀ rs x (imm : Word), k.dsize ≤ 64 → (c.xreg x + imm).toNat = 0x1010C →
      posEffect c k cat beat exp (some (.store 4 rs x imm)) = .error 0x1010C) ∧
    c.xreg 0 = 0)

/-- R170, R171: a store slot whose checks pass in a cluster without errors. The first block of COPY, D2S and S2D is
read on the issue beat and lands 7, 2 and 7 beats later, FILL's lands on its beat; a task stands for the other blocks.
R171: each further block of a COPY is read 512 bytes on, one beat later, and lands 512 bytes on, 7 beats after its
read, from the registers as the slot read them when it issued. -/
def Obligations.StoreSlotsRun : Prop :=
  (∀ (a : Issue) (f : StoreSlot) (s : State) (i : Issuer),
    s.issuer a = some i → (s.cluster a.die a.phys).clean →
    let k := s.ctxAt a
    let c := s.cluster a.die a.phys
    let js := fun op => i.task k (f.nm1 + 1) (.store op f) []
    (s.planFails a i (storePlan k 1 f) = none → ∃ t, exec (.copy a f) s = .next t ∧ s.SlotFrame t a ∧
      s.Issued t a [(i.beat + 7, .spad (k.offset f.pd) (c.read (k.offset f.ps) 512))] (js 1)) ∧
    (s.planFails a i (storePlan k 2 f) = none → ∃ t, exec (.fill a f) s = .next t ∧ s.SlotFrame t a ∧
      s.Issued t a [(i.beat, .spad (k.offset f.pd) (bytesOfWords (List.replicate 128 (k.param f.ps))))] (js 2)) ∧
    (s.planFails a i (storePlan k 3 f) = none → ∃ t, exec (.d2s a f) s = .next t ∧ s.SlotFrame t a ∧
      s.Issued t a [(i.beat + 2, .spad (k.offset f.pd) (c.readData k (k.param f.ps).toNat 64))] (js 3)) ∧
    (s.planFails a i (storePlan k 4 f) = none → ∃ t, exec (.s2d a f) s = .next t ∧ s.SlotFrame t a ∧
      s.Issued t a [(i.beat + 7, .data (k.param f.pd).toNat (c.read (k.offset f.ps) 64) true)] (js 4))) ∧
  (∀ (a : Issue) (f : StoreSlot) (s : State) (i : Issuer) (j : Task),
    (s.cluster a.die a.phys).clean → j.issued ≤ i.beat →
    ∃ t, storeBeat 1 f a i j s = (t, j) ∧ s.SlotFrame t a ∧
      s.Issued t a [(i.beat + 7, .spad ((Tab.get 0 j.params f.pd).toNat + 512 * (i.beat - j.issued))
        ((s.cluster a.die a.phys).read ((Tab.get 0 j.params f.ps).toNat + 512 * (i.beat - j.issued)) 512))] [])

/-- R73, R75, R105, R104, R80, R182: a stationary load of either form, a TLOAD and a SET complete. The first data beat of
a load reads 1/D of each half, and the scales of two tokens, and files them for the beat on which they are usable, six beats
later; a task stands for the other data beats. A TLOAD reads its first 64 entries, or the K it has, and files them so. A SET
is in force at once, from the registers it names, and CNV_CFG shows it at the end of the beat. The setup latched at once and
CNV_TAB written with the TLOAD's last entries are the model's readings (notes/assumptions/30.md). -/
def Obligations.LoadsAndSetupsRun : Prop :=
  ∀ (a : Issue) (s : State) (i : Issuer), s.issuer a = some i →
    let k := s.ctxAt a
    let c := s.cluster a.die a.phys
    let filed := fun (f : LoadSlot) (transp : Bool) =>
      let h := halfRuns k f.sfmt f.pa f.pb f.ps
      let n := (halfBeat f transp 0).2
      let scales := fun (off : Int) => c.read off.toNat 32
      ([(i.beat + 6, .tile f.arr f.tb f.sfmt transp true false
        (tilePart f transp 0 0 (c.read h.1 n) ++ tilePart f transp 1 0 (c.read h.2.1 n))
        (if isMx f.sfmt then scalePart 0 0 (scales h.2.2.1) ++ scalePart 1 0 (scales h.2.2.2) else []))] :
        List (Nat × Commit))
    (∀ f : LoadSlot, c.clean → s.planFails a i (loadPlan k false f) = none →
      ∃ t, exec (.stationaryLoadNormal a f) s = .next t ∧ s.SlotFrame t a ∧
        s.Issued t a (filed f false) (i.task k (loadBeats f.sfmt false) (.load f false) [])) ∧
    (∀ f : LoadSlot, c.clean → s.planFails a i (loadPlan k true f) = none →
      ∃ t, exec (.stationaryLoadTransposed a f) s = .next t ∧ s.SlotFrame t a ∧
        s.Issued t a (filed f true) (i.task k (loadBeats f.sfmt true) (.load f true) [])) ∧
    (∀ f : TloadSlot, c.clean → s.planFails a i (tloadPlan k f) = none → 64 ≤ f.km1 →
      ∃ t, exec (.tload a f) s = .next t ∧ s.SlotFrame t a ∧
        s.Issued t a [(i.beat + 6, .table f.arr f.tbase
          ((unpackBits 64 (c.read (k.offset f.pa) 512)).map (BitVec.ofNat 64)))]
          (i.task k (tloadBeats (f.km1 + 1)) (.tload f) [])) ∧
    (∀ f : TloadSlot, c.clean → s.planFails a i (tloadPlan k f) = none → f.km1 < 64 →
      ∃ t, exec (.tload a f) s = .next t ∧ s.SlotFrame t a ∧
        s.Issued t a [(i.beat + 6, .table f.arr f.tbase
            ((unpackBits 64 (c.read (k.offset f.pa) (8 * (f.km1 + 1)))).map (BitVec.ofNat 64))),
          (i.beat + 6, .tableState f.arr (BitVec.ofNat 32 (1 + f.tbase * 2 + f.km1 * 4096)))] []) ∧
    (∀ f : SetSlot, ∃ t, exec (.cnvSet a f) s = .next t ∧ s.OnlyCluster t a.die a.phys ∧
      t.cluster a.die a.phys = (c.setArr f.arr { c.arr f.arr with setup := some (setupOf k f) }).setCtx a.ctx
        { k with commits := k.commits ++ [(i.beat, .setupState f.arr (cnvCfgOf f))] })

/-- R71, R77, R80, R82: a stream whose checks pass takes the feeder for its feeder beats and latches the setup in
force; its first feeder beat is run and a task stands for the others. No other array changes, and nothing is written
on the beat. -/
def Obligations.StreamRuns : Prop :=
  ∀ (a : Issue) (f : StreamSlot) (s : State) (i : Issuer),
    s.issuer a = some i → (s.cluster a.die a.phys).clean →
    let x := (s.cluster a.die a.phys).arr f.arr
    let q := feederBeats (rateOf (x.bank f.tb).fmt f.wfmt) (f.nm1 + 1)
    let now := (s.region (regionKey a.die a.phys)).beat
    s.planFails a i (streamPlan (s.ctxAt a) f (x.bank f.tb).fmt (x.setup.getD CnvSetup.init) (s.catOf i.tenant)) = none →
    ∃ t, exec (.stream a f) s = .next t ∧ s.OnlyCluster t a.die a.phys ∧
      (t.cluster a.die a.phys).arr f.arr =
        { x with feedUntil := now + q, drainUntil := max x.drainUntil (now + drainSpan f (s.catOf i.tenant) q) } ∧
      (∀ n, (n = 0 ↔ f.arr ≠ 0) → (t.cluster a.die a.phys).arr n = (s.cluster a.die a.phys).arr n) ∧
      (∀ n, (t.cluster a.die a.phys).vcore n = (s.cluster a.die a.phys).vcore n) ∧
      (t.cluster a.die a.phys).spad = (s.cluster a.die a.phys).spad ∧
      (t.ctxAt a).jobs.length = (s.ctxAt a).jobs.length + (if q ≤ 1 then 0 else 1) ∧
      (∀ j ∈ (t.ctxAt a).jobs, j ∈ (s.ctxAt a).jobs ∨ (j.issued = i.beat ∧ j.beats = q ∧
        j.work = .stream f (x.setup.getD CnvSetup.init) ∧ j.params = (s.ctxAt a).params)) ∧
      t.ctxAt a = { s.ctxAt a with commits := (t.ctxAt a).commits, jobs := (t.ctxAt a).jobs }

/-- R118, R126, R127, R129 to R132: the vector operations. Each reads on its issue beat and puts on their way the
registers, row state and flags its rule gives, due with its latency, and changes nothing else. R118, R122, R124: lane
j of an elementwise result comes from lane j of the operands, operand B from the parameter register PP where SB is 1,
and is never −0; in packed mode each half of the lane is operated on apart. -/
def Obligations.VectorSlotsRun : Prop :=
  (∀ (a : Issue) (f : VecSlot) (s : State) (i : Issuer), s.issuer a = some i →
    let k := s.ctxAt a
    let v := (s.cluster a.die a.phys).vcore f.core
    let ran := fun (op : Nat) (r : VecOut) (t : State) => s.SlotFrame t a ∧
      s.Issued t a (r.commits f (s.catOf i.tenant) op i.beat) []
    (∃ t, exec (.add a f) s = .next t ∧ ran 0x01 (elementwise f (fun x y _ => fadd x y) k v) t) ∧
    (∃ t, exec (.sub a f) s = .next t ∧ ran 0x02 (elementwise f (fun x y _ => fsub x y) k v) t) ∧
    (∃ t, exec (.mul a f) s = .next t ∧ ran 0x03 (elementwise f (fun x y _ => fmul x y) k v) t) ∧
    (∃ t, exec (.fma a f) s = .next t ∧ ran 0x04 (elementwise f ffma k v) t) ∧
    (∃ t, exec (.max a f) s = .next t ∧ ran 0x05 (elementwise f (fun x y _ => (fmax x y, 0)) k v) t) ∧
    (∃ t, exec (.min a f) s = .next t ∧ ran 0x06 (elementwise f (fun x y _ => (fmin x y, 0)) k v) t) ∧
    (∃ t, exec (.exp a f) s = .next t ∧ ran 0x08 (elementwise f (fun x _ _ => fexp x) k v) t) ∧
    (∃ t, exec (.rcp a f) s = .next t ∧ ran 0x09 (elementwise f (fun x _ _ => frcp x) k v) t) ∧
    (∃ t, exec (.rsq a f) s = .next t ∧ ran 0x0A (elementwise f (fun x _ _ => frsq x) k v) t) ∧
    (∃ t, exec (.gelu a f) s = .next t ∧ ran 0x0B (elementwise f (fun x _ _ => fgelu x) k v) t) ∧
    (∃ t, exec (.silu a f) s = .next t ∧ ran 0x0C (elementwise f (fun x _ _ => fsilu x) k v) t) ∧
    (∃ t, exec (.rsum a f) s = .next t ∧ ran 0x0D
      { regs := [(f.vd, List.replicate 128 (posZero (rsumOf (v.reg f.va)).1))], row := none,
        flags := (rsumOf (v.reg f.va)).2 } t) ∧
    (∃ t, exec (.rmax a f) s = .next t ∧ ran 0x0E
      { regs := [(f.vd, List.replicate 128 (rmaxOf (v.reg f.va)))], row := none, flags := 0 } t) ∧
    (∃ t, exec (.smxi a f) s = .next t ∧ ran 0x10 { regs := [], row := some (0xFF800000, 0), flags := 0 } t) ∧
    (∃ t, exec (.smxs a f) s = .next t ∧ ran 0x11
      (let r := softmaxStep (v.row f.row) (v.reg f.va)
       { regs := [(f.vd, r.1), (f.vb, List.replicate 128 r.2.1)], row := some r.2.2.1, flags := r.2.2.2 }) t) ∧
    ((v.row f.row).2 = 0 → ∃ t, exec (.smxn a f) s = .next t ∧ ran 0x12
      { regs := [(f.vd, List.replicate 128 0)], row := none, flags := 0 } t) ∧
    ((v.row f.row).2 ≠ 0 → ∃ t, exec (.smxn a f) s = .next t ∧ ran 0x12
      { regs := [(f.vd, (v.reg f.va).map fun x => posZero (fmul x (frcp (v.row f.row).2).1).1)], row := none,
        flags := ((v.reg f.va).map fun x => fmul x (frcp (v.row f.row).2).1).foldl (fun x r => x ||| r.2)
          (frcp (v.row f.row).2).2 } t) ∧
    (∃ t r, exec (.rope a f) s = .next t ∧ ran 0x18 r t ∧ r.row = none ∧ r.regs.map (·.1) = [f.vd] ∧
      ((k.param f.pp).toNat % 2 ^ 24 = 0 → (∀ w ∈ v.reg f.va, ∃ n m e, f32 w = .fin n m e) →
        r.regs = [(f.vd, (v.reg f.va).map posZero)] ∧ r.flags = 0))) ∧
  (∀ (f : VecSlot) (op : Word → Word → Word → Word × Flags4) (k : Ctx) (v : VCore) (j : Nat), j < 128 →
    ∃ ws, (elementwise f op k v).regs = [(f.vd, ws)] ∧ ws.length = 128 ∧
      (let y := if f.sb = 1 then k.param f.pp else Tab.get 0 v.vr (128 * f.vb + j)
       let x := Tab.get 0 v.vr (128 * f.va + j)
       let z := Tab.get 0 v.vr (128 * f.vc + j)
       (f.pk ≠ 1 → ws[j]? = some (posZero (op x y z).1) ∧ ws[j]? ≠ some 0x80000000) ∧
       (f.pk = 1 → ws[j]? = some (packedOp (fun x y z => (posZero (op x y z).1, (op x y z).2)) x y z).1)))

/-- R125, R126, R128, R134: VLD and RTLD read on their issue beat and fill a register or the rotary table with their
latency; VST converts the register's lanes as they stand and writes with its latency. -/
def Obligations.VectorMemorySlotsRun : Prop :=
  ∀ (a : Issue) (f : VmemSlot) (s : State) (i : Issuer), s.issuer a = some i → (s.cluster a.die a.phys).clean →
    let k := s.ctxAt a
    let c := s.cluster a.die a.phys
    let cat := s.catOf i.tenant
    let off := k.offset f.pa + 32 * f.off
    (s.planFails a i (vmemPlan k 0x20 f cat) = none →
      ∃ t, exec (.vld a f) s = .next t ∧ s.SlotFrame t a ∧
        s.Issued t a [(i.beat + vecLatency cat 0x20 - 1, .vreg f.core f.vr (vldWords f (c.read off (vmemBytes f))))] []) ∧
    (s.planFails a i (vmemPlan k 0x22 f cat) = none →
      ∃ t, exec (.rtld a f) s = .next t ∧ s.SlotFrame t a ∧
        s.Issued t a [(i.beat + vecLatency cat 0x22 - 1, .rope f.core (wordsOfBytes (c.read off 256)))] []) ∧
    (s.planFails a i (vmemPlan k 0x21 f cat) = none → f.pk = 1 →
      ∃ t, exec (.vst a f) s = .next t ∧ s.SlotFrame t a ∧
        s.Issued t a [(i.beat + vecLatency cat 0x21 - 1, .spad off (bytesOfWords ((c.vcore f.core).reg f.vr)))] []) ∧
    (s.planFails a i (vmemPlan k 0x21 f cat) = none → f.pk ≠ 1 →
      ∃ t xs, exec (.vst a f) s = .next t ∧ s.SlotFrame t a ∧ s.Issued t a xs [] ∧
        xs.head? = some (i.beat + vecLatency cat 0x21 - 1, .spad off (packBits (elemBits f.fmt)
          ((((c.vcore f.core).reg f.vr).zip (List.range 128)).map fun p =>
            (vstLane f (s.seedOf i.tenant) (k.param f.pix) p.2 p.1).code))))

/-- R137 to R146: the selection slots. Each takes its core's selection unit; an IXLD loads an index bank with its
latency; a GATHER files its first row, from the window where the entry is below NIDX and zeros where it is not, which
is counted. The moment the events are counted is the model's reading (notes/assumptions/31.md). -/
def Obligations.SelectionSlotsRun : Prop :=
  ∀ (a : Issue) (s : State) (i : Issuer), s.issuer a = some i → (s.cluster a.die a.phys).clean →
    let k := s.ctxAt a
    let c := s.cluster a.die a.phys
    let cat := s.catOf i.tenant
    let now := (s.region (regionKey a.die a.phys)).beat
    let taken := fun (t : State) (vc n : Nat) => s.OnlyCluster t a.die a.phys ∧
      (t.cluster a.die a.phys).vcore vc = ((s.cluster a.die a.phys).vcore vc).occupy now n ∧
      (t.cluster a.die a.phys).spad = c.spad ∧ (t.cluster a.die a.phys).xb = c.xb ∧
      t.ctxAt a = { k with commits := (t.ctxAt a).commits, jobs := (t.ctxAt a).jobs }
    (∀ f : TopkSlot, s.planFails a i (topkPlan k f cat) = none → 1 < topkBeats f →
      ∃ t, exec (.topk a f) s = .next t ∧ taken t f.vc (topkBeats f) ∧
        (t.ctxAt a).commits = k.commits ∧ (t.ctxAt a).jobs.length = k.jobs.length + 1) ∧
    (∀ f : TopkSlot, s.planFails a i (topkPlan k f cat) = none → topkBeats f = 1 →
      let r := topkOf f (k.param f.pib) (c.read (k.offset f.pa) ((f.cm1 + 1) * if f.kfmt = 1 then 2 else 4))
      ∃ t, exec (.topk a f) s = .next t ∧ taken t f.vc 1 ∧ (t.ctxAt a).jobs = k.jobs ∧
        (i.beat + (topkPlan k f cat).ends, Commit.index f.xb (r.1 ++ List.replicate (64 - r.1.length) 0xFFFFFFFF)) ∈
          (t.ctxAt a).commits) ∧
    (∀ f : IxldSlot, s.planFails a i (ixldPlan k f cat) = none →
      ∃ t, exec (.ixld a f) s = .next t ∧ taken t f.vc 1 ∧
        s.Issued t a [(i.beat + (if cat = 2 then 6 else 7), .index f.xb (wordsOfBytes (c.read (k.offset f.pa) 256)))] []) ∧
    (∀ f : GatherSlot, s.planFails a i (gatherPlan k f cat) = none →
      let x := (Tab.get 0 c.xb (64 * f.xb)).toNat
      let nidx := (k.param f.pn).toNat % 65536
      let due := i.beat + if cat = 2 then 7 else 8
      ∃ t, exec (.gather a f) s = .next t ∧ taken t f.vc ((f.gm1 + 1) * (f.nbm1 + 1)) ∧
        (x < nidx → (t.ctxAt a).commits =
          k.commits ++ [(due, .spad (k.offset f.po) (c.read (k.offset f.pw + x * f.stride * 512) 512))]) ∧
        (nidx ≤ x → (t.ctxAt a).commits =
          k.commits ++ [(due, .spad (k.offset f.po) (List.replicate 512 0)),
                        (due, .events f.vc { SelEvents.none_ with goor := 1 })])) ∧
    (∀ f : ScatterSlot, s.planFails a i (scatterPlan k f cat) = none → 128 ≤ f.tm1 →
      ∃ t, exec (.scatter a f) s = .next t ∧
        taken t f.vc (scatterPhase f cat + scatterSlots k f * (scatterShape k f).2.1) ∧
        (t.ctxAt a).commits = k.commits ∧ (t.ctxAt a).jobs.length = k.jobs.length + 1) ∧
    (∀ f : ScatterSlot, s.planFails a i (scatterPlan k f cat) = none → f.tm1 < 128 →
      let r := scatterAll (f.dm1 + 1) (f.cm1 + 1) (scatterShape k f).1 (scatterShape k f).2.2
        (wordsOfBytes (c.read (k.offset f.pl) (4 * (f.tm1 + 1))))
      ∃ t, exec (.scatter a f) s = .next t ∧
        taken t f.vc (scatterPhase f cat + scatterSlots k f * (scatterShape k f).2.1) ∧
        (t.ctxAt a).commits = k.commits ++ scatterCommits f (k.offset f.pm) (i.beat + scatterPhase f cat) r ∧
        (t.ctxAt a).jobs.length = k.jobs.length + 1)

/-- R172, R200, R290: a SEND's first flit is read on its beat and is at input LOC of its router six beats later; a
RECV opens for its n flits with the check value's seed. Nothing is written on the beat. -/
def Obligations.BulkSlotsRun : Prop :=
  ∀ (a : Issue) (f : BulkSlot) (s : State) (i : Issuer), s.issuer a = some i → (s.cluster a.die a.phys).clean →
    let k := s.ctxAt a
    let c := s.cluster a.die a.phys
    let flit := c.read (k.offset f.pa) 256
    let addr := (k.param f.pda).toNat + 2 ^ 32 * ((k.param (f.pda + 1)).toNat % 65536)
    (s.planFails a i (bulkPlan k 1 f) = none →
      ∃ t, exec (.send a f) s = .next t ∧
        (t.router a.die a.phys).flits = (s.router a.die a.phys).flits ++
          [{ lane := 0, beat := i.beat + 6, flit := { tenant := i.tenant, data := flit } }] ∧
        (∀ d p, clKey d p ≠ clKey a.die a.phys → t.router d p = s.router d p ∧ t.cluster d p = s.cluster d p) ∧
        t = { s with clusters := t.clusters, routers := t.routers } ∧
        (t.cluster a.die a.phys).spad = c.spad ∧
        (t.ctxAt a).jobs.length = k.jobs.length + (if f.nm1 = 0 then 0 else 1) ∧
        (t.ctxAt a).commits = k.commits ++ (if f.nm1 = 0 ∧ f.chk = 1 then
          [(i.beat + 1, .check { tseq := k.param f.pq, val := checkValue addr (k.param f.pq) flit, nfl := 1, valid := true,
                                 recv := false })] else [])) ∧
    (s.planFails a i (bulkPlan k 2 f) = none → k.recv = none →
      ∃ t, exec (.recv a f) s = .next t ∧ s.CtxFrame t a ∧
        let seed := crcSeed (s.sharedAddr a.die ((s.logOf a.die a.phys).getD 0) (k.offset f.pa)) (k.param f.pq) (256 * (f.nm1 + 1))
        t.ctxAt a = { k with recv := some { base := k.offset f.pa, n := f.nm1 + 1, got := 0, chk := f.chk = 1,
                                            tseq := k.param f.pq, issued := i.beat, crc := seed } }) ∧
    (s.planFails a i (bulkPlan k 2 f) = none → k.recv ≠ none →
      ∃ t, exec (.recv a f) s = .next t ∧ s.CtxFrame t a ∧ t.ctxAt a = k)

/-- R163, R164: the parameter forms. Every register of the run is written in whole at the end of the issue beat: SET
with IMM, ADDI with itself plus IMM modulo 2^32, MOVA's one with PA plus IMM. When the beat ends a register with one
such write due has its value, a register nobody writes keeps its own, and what is due later waits. -/
def Obligations.ParameterSlotsRun : Prop :=
  (∀ (a : Issue) (f : ParamSlot) (s : State) (i : Issuer), s.issuer a = some i →
    let k := s.ctxAt a
    let put := fun (r : Nat) (v : Word) =>
      ({ due := i.beat, reg := r, value := v, mask := 0xFFFFFFFF, update := true } : PWrite)
    (∃ t, exec (.paramSet a f) s = .next t ∧ s.CtxFrame t a ∧ t.ctxAt a = { k with pwrites := k.pwrites ++
      ((List.range (f.nm1 + 1)).map fun j => put (f.pd + j) (BitVec.ofNat 32 f.imm)) }) ∧
    (∃ t, exec (.paramAddi a f) s = .next t ∧ s.CtxFrame t a ∧ t.ctxAt a = { k with pwrites := k.pwrites ++
      ((List.range (f.nm1 + 1)).map fun j => put (f.pd + j) (k.param (f.pd + j) + BitVec.ofNat 32 f.imm)) }) ∧
    (∃ t, exec (.mova a f) s = .next t ∧ s.CtxFrame t a ∧ t.ctxAt a = { k with pwrites := k.pwrites ++
      [put f.pd (k.param f.pa + BitVec.ofNat 32 f.imm)] })) ∧
  (∀ (k : Ctx) (beat r : Nat) (v : Word),
    (k.pwrites = [{ due := beat, reg := r, value := v, mask := 0xFFFFFFFF, update := true }] →
      (k.commitParams beat).1.param r = v ∧ (k.commitParams beat).2 = 0 ∧ (k.commitParams beat).1.pwrites = []) ∧
    ((∀ w ∈ k.pwrites, w.reg ≠ r) → (k.commitParams beat).1.param r = k.param r) ∧
    ((∀ w ∈ k.pwrites, beat < w.due) →
      (k.commitParams beat).1.params = k.params ∧ (k.commitParams beat).1.pwrites = k.pwrites))

/-- R165: a kind 11 update and scalar stores to one parameter register at the end of one beat. Whatever order they
were put down in, the register ends with the kind 11 value, which the next beat's slots read; the collision is counted
once in SEQ_C_PCOLL, and nothing is counted where no store met it; the other registers take what the stores give. A
store of beat i and a kind 11 slot of beat i + 1 are such a pair. -/
def Obligations.ParameterCollision : Prop :=
  (∀ (k : Ctx) (beat r : Nat) (v : Word) (stores l : List PWrite),
    (∀ x ∈ stores, x.update = false ∧ x.due ≤ beat) →
    l.Perm ({ due := beat, reg := r, value := v, mask := 0xFFFFFFFF, update := true } :: stores) → k.pwrites = l →
    let after := (k.commitParams beat).1
    after.param r = v ∧ after.pwrites = [] ∧
    ((∃ x ∈ stores, x.reg = r) → after.pcoll = satAdd k.pcoll 1) ∧
    ((∀ x ∈ stores, x.reg ≠ r) → after.pcoll = satAdd k.pcoll 0) ∧
    ∀ r', r' ≠ r →
      after.param r' = (({ k with pwrites := l.filter fun x => !x.update } : Ctx).commitParams beat).1.param r') ∧
  (∀ (c : Cluster) (n beat : Nat), ((c.endBeat n beat).1.ctx n).params = ((c.ctx n).commitParams beat).1.params ∧
    ((c.endBeat n beat).1.ctx n).pcoll = ((c.ctx n).commitParams beat).1.pcoll) ∧
  (∀ (c : Cluster) (k : Ctx) (cat beat exp rs x r : Nat) (imm : Word), k.dsize ≤ 64 → r < 64 →
    (c.xreg x + imm).toNat = 0x10000 + 4 * r →
    ∃ e, posEffect c k cat beat exp (some (.store 4 rs x imm)) = .ok e ∧ e.params ≠ [] ∧
      ∀ w ∈ e.params, w.update = false ∧ w.reg = r ∧ w.due = beat + 1) ∧
  (∀ (a : Issue) (f : ParamSlot) (s : State) (i : Issuer) (c : Instr), s.issuer a = some i →
    c ∈ [.paramSet a f, .paramAddi a f, .mova a f] →
    ∃ t ws, exec c s = .next t ∧ (t.ctxAt a).pwrites = (s.ctxAt a).pwrites ++ ws ∧ ws ≠ [] ∧
      ∀ w ∈ ws, w.update = true ∧ w.due = i.beat ∧ w.mask = 0xFFFFFFFF)

/-- R152, R156 to R158: a control or idle line takes effect with the end of its beat, and changes nothing else on
it. R157: a LOOP whose counter is disarmed jumps CM1 times and then falls to the next line or, with EXITEND, ends
the program, its counter disarmed again; the other counters keep their values. `after m` is the context after the
line has issued m times, on the beats given. -/
def Obligations.LinesRun : Prop :=
  (∀ (a : Issue) (s : State) (i : Issuer) (w : LoopWord) (rep : Nat), s.issuer a = some i →
    (∃ t, exec (.loop a w) s = .next t ∧ s.SlotFrame t a ∧ s.Issued t a [(i.beat, .loop w)] []) ∧
    (∃ t, exec (.endProgram a) s = .next t ∧ s.SlotFrame t a ∧ s.Issued t a [(i.beat, .finish)] []) ∧
    (∃ t, exec (.idleLine a rep) s = .next t ∧ s.SlotFrame t a ∧ s.Issued t a [(i.beat, .idle rep)] [])) ∧
  (∀ (k : Ctx) (w : LoopWord) (beats : Nat → Nat) (n : Nat), Tab.get false k.armed w.lc = false →
    let after := fun (m : Nat) => (List.range m).foldl (fun (k : Ctx) j => k.control (beats j) (.loop w)) k
    (n < w.cm1 → (after (n + 1)).word = w.target ∧ (after (n + 1)).ended = k.ended ∧
      (after (n + 1)).lineAt = beats n + 1 ∧
      Tab.get false (after (n + 1)).armed w.lc = true ∧ Tab.get 0 (after (n + 1)).lc w.lc = w.cm1 - 1 - n) ∧
    ((after (w.cm1 + 1)).word = (after w.cm1).word + 3 ∧
      (after (w.cm1 + 1)).ended = (k.ended || decide (w.exitend = 1)) ∧
      Tab.get false (after (w.cm1 + 1)).armed w.lc = false) ∧
    (∀ m c, c ≠ w.lc → Tab.get 0 (after m).lc c = Tab.get 0 k.lc c ∧ Tab.get false (after m).armed c = Tab.get false k.armed c))


/-! Results, memory and flags. -/

/-- R81, R126, R142, R160, R171, R187: what a result does when its beat ends. Bytes land where the slot named them, in
the scratchpad or through the context's data window, and no other byte changes; a vector register, a softmax row, an x
register or a run of channel-table entries takes its value and its neighbours keep theirs; other clusters keep their
memories. -/
def Obligations.ResultsLand : Prop :=
  ∀ (s : State) (a : Issue) (i : Issuer),
    let c := s.cluster a.die a.phys
    let after := fun (x : Commit) => (s.land a i x).cluster a.die a.phys
    (∀ off bytes j, Tab.get 0 (after (.spad off bytes)).spad j =
      if off ≤ j then bytes.getD (j - off) (Tab.get 0 c.spad j) else Tab.get 0 c.spad j) ∧
    (∀ off bytes b j, (after (.data off bytes b)).spad = c.spad ∧
      Tab.get 0 (after (.data off bytes b)).dsram j =
        if (s.ctxAt a).dbase * 1024 + off ≤ j then
          bytes.getD (j - ((s.ctxAt a).dbase * 1024 + off)) (Tab.get 0 c.dsram j)
        else Tab.get 0 c.dsram j) ∧
    (∀ n r ws, ws.length = 128 → ((after (.vreg n r ws)).vcore n).reg r = ws ∧
      ∀ r' j, r' ≠ r → j < 128 → ((after (.vreg n r ws)).vcore n).lane r' j = (c.vcore n).lane r' j) ∧
    (∀ n r m l, ((after (.row n r m l)).vcore n).row r = (m, l) ∧
      ∀ r', r' ≠ r → ((after (.row n r m l)).vcore n).row r' = (c.vcore n).row r') ∧
    (∀ r v, r ≠ 0 → (after (.xreg r v)).xreg r = v ∧ ∀ r', r' ≠ r → (after (.xreg r v)).xreg r' = c.xreg r') ∧
    (∀ n base es j, Tab.get 0 ((after (.table n base es)).arr n).table j =
      if base ≤ j then es.getD (j - base) (Tab.get 0 (c.arr n).table j) else Tab.get 0 (c.arr n).table j) ∧
    (∀ x d p, clKey d p ≠ clKey a.die a.phys →
      ((s.land a i x).cluster d p).spad = (s.cluster d p).spad ∧ ((s.land a i x).cluster d p).dsram = (s.cluster d p).dsram)

/-- R448: from beat h of a halt on no context of the run commits anything; before it, what is due later stays due. -/
def Obligations.NothingLandsAfterAHalt : Prop :=
  ∀ (s : State) (a : Issue) (tenant region : Nat) (r : Run) (x : Halting),
    (s.tenant tenant).run = some r → r.halting = some x →
    x.h ≤ Tab.get 0 r.beats region - 1 → s.endContext a tenant region = s

/-- The canonical form of memory (addresses strictly rising, no default byte listed) is kept when a result lands, by
every slot, by writes of a data window, by slices that close and open, and by the scrubber. -/
def Obligations.MemoryFormKept : Prop :=
  ∀ (s : State), Memory.wf s = true →
    (∀ a i x, Memory.wf (s.land a i x) = true) ∧
    (∀ (c : Instr) (t : State), c.site ≠ none → exec c s = .next t → Memory.wf t = true) ∧
    (∀ (c : Instr) (t : State), (∃ d p n, c = .sliceCloseDone d p n ∨ c = .sliceOpenDone d p n ∨ c = .scrubWriteback d p n ∨
        c = .scrubRead d p n) ∨ (∃ a d k o bs, c = .hostDwinWrite a d k o bs) →
      exec c s = .next t → Memory.wf t = true)

/-- R220: the operations that reach a flag on one beat act in one order whatever order they came in: every CLR, then
the k CNTs together, then every SET; all that is due in a cluster is applied together. An operation of a plate or of a
host that is issued leaves every flag as it stood, so a wait on any beat sees the flag of the end of the beat before. -/
def Obligations.FlagOperationOrder : Prop :=
  (∀ (f : Flag) (ops : List FlagOp), f.c < f.th →
    let c0 := if FlagOp.clr ∈ ops then 0 else f.c
    let s0 := if FlagOp.clr ∈ ops then false else f.s
    let c1 := c0 + ops.count .cnt
    f.apply ops = { f with
      s := if FlagOp.set ∈ ops then true else if f.th ≤ c1 then true else s0,
      c := if f.th ≤ c1 then c1 % f.th else c1 } ∧
    (∀ ops', ops.Perm ops' → f.apply ops = f.apply ops') ∧
    (FlagOp.set ∈ ops → FlagOp.clr ∈ ops → (f.apply ops).s = true) ∧
    (f.apply ops).c < f.th) ∧
  (∀ (c : Cluster) (due : FlagMsg → Bool),
    (c.applyFlags due).flagMsgs = (c.flagMsgs.filter fun m => !due m) ∧
    ∀ n, (c.applyFlags due).flag n = (c.flag n).apply ((c.flagMsgs.filter fun m => due m && m.flag = n).map (·.op))) ∧
  (∀ (a : Issue) (f : SyncSlot) (g : Agent) (die cluster flag owner : Nat) (s : State) (c : Instr),
    c ∈ [.flagSet a f, .flagClr a f, .flagCnt a f, .snetFopSet g die cluster flag owner, .snetFopClr g die cluster flag owner,
      .snetFopCnt g die cluster flag owner] →
    ∃ t, exec c s = .next t ∧ ∀ d p n, (t.cluster d p).flag n = (s.cluster d p).flag n)

/-- R173, R219, R221, R222: a flag operation of a plate. On its own cluster it is due at the end of beat i + 1; named
to another cluster of the package 24 beats after its issue, or 36 across the dies; a flag outside the partition is
left alone and counted under cause 0x16. R220, R221: on a beat by which an operation of another cluster is due, every
operation due is applied to its flag, together, and is no longer on its way; nothing else changes. -/
def Obligations.FlagSlotsRun : Prop :=
  (∀ (a : Issue) (f : SyncSlot) (s : State) (i : Issuer), s.issuer a = some i →
    let sent := fun (op : FlagOp) (d p n due : Nat) (loc : Bool) (t : State) => s.OnlyCluster t d p ∧
      t.cluster d p = { s.cluster d p with flagMsgs := (s.cluster d p).flagMsgs ++
        [{ tenant := i.tenant, host := false, op := op, flag := n, due := due, loc := loc }] }
    let refused := fun (t : State) => (∀ d p, t.cluster d p = s.cluster d p) ∧
      Tab.get 0 (t.flt a.die).cnt 0x16 = satAdd (Tab.get 0 (s.flt a.die).cnt 0x16) 1
    (∀ n, f.remote = 0 → (s.cluster a.die a.phys).flagIn i.tenant f.flag = some n →
      (∃ t, exec (.flagSet a f) s = .next t ∧ sent .set a.die a.phys n (i.beat + 1) true t) ∧
      (∃ t, exec (.flagClr a f) s = .next t ∧ sent .clr a.die a.phys n (i.beat + 1) true t) ∧
      (∃ t, exec (.flagCnt a f) s = .next t ∧ sent .cnt a.die a.phys n (i.beat + 1) true t)) ∧
    (∀ b d p n, f.remote ≠ 0 → (s.tenant i.tenant).binding = some b →
      (b.scope = 0 ∨ 16 * (b.own / 16) + f.tpkg = b.own) → b.place (24 * f.tdie + f.tcl) = some (d, p) →
      (s.cluster d p).flagIn i.tenant f.flag = some n →
      let due := i.beat + if d = a.die then 24 else 36
      (∃ t, exec (.flagSet a f) s = .next t ∧ sent .set d p n due false t) ∧
      (∃ t, exec (.flagClr a f) s = .next t ∧ sent .clr d p n due false t) ∧
      (∃ t, exec (.flagCnt a f) s = .next t ∧ sent .cnt d p n due false t)) ∧
    (f.remote = 0 → (s.cluster a.die a.phys).flagIn i.tenant f.flag = none →
      (∃ t, exec (.flagSet a f) s = .next t ∧ refused t) ∧
      (∃ t, exec (.flagClr a f) s = .next t ∧ refused t) ∧
      (∃ t, exec (.flagCnt a f) s = .next t ∧ refused t))) ∧
  (∀ (die phys : Nat) (s : State),
    let c := s.cluster die phys
    let due := s.flagDue (regionKey die phys)
    (∃ m ∈ c.flagMsgs, m.loc = false ∧ due m = true) →
    ∃ t, exec (.remoteFlagApply die phys) s = .next t ∧ s.OnlyCluster t die phys ∧
      t.cluster die phys = { c with flags := (t.cluster die phys).flags, flagMsgs := c.flagMsgs.filter fun m => !due m } ∧
      ∀ n, (t.cluster die phys).flag n = (c.flag n).apply ((c.flagMsgs.filter fun m => due m && m.flag = n).map (·.op)))

/-- R173, R223 to R225: a wait issues. A closed wait whose condition holds lets its line go on; one whose condition
does not hold stands from its beat, with its timeout; an open wait stands in every case, where the wait table holds
its timeout. R223, R224, R226, R228: a wait ends. A closed wait that was noted to hold ends before its timeout, an open one
exactly at i + T; the beat becomes the line's issue beat. One that expires is counted and its plate halts with FAULT.
Where an event's condition does not hold nothing changes (the model's choice, notes/assumptions/8.md). -/
def Obligations.WaitSlotsRun : Prop :=
  (∀ (a : Issue) (f : SyncSlot) (s : State) (i : Issuer) (n : Nat), s.issuer a = some i →
    (s.cluster a.die a.phys).flagIn i.tenant f.flag = some n →
    let k := s.ctxAt a
    let fl := (s.cluster a.die a.phys).flag n
    let T := (k.param f.pt).toNat % 2 ^ 24
    let stands := fun (clear o l : Bool) (t : State) => s.CtxFrame t a ∧ t.ctxAt a =
      { k with wait := some { flag := f.flag, clear := clear, opened := o, issued := i.beat, timeout := T, latch := l } }
    (fl.opened = false → fl.s = true → exec (.waits a f) s = .next s) ∧
    (fl.opened = false → fl.s = false → exec (.waitc a f) s = .next s) ∧
    (fl.opened = false → fl.s = false → ∃ t, exec (.waits a f) s = .next t ∧ stands false false false t) ∧
    (fl.opened = false → fl.s = true → ∃ t, exec (.waitc a f) s = .next t ∧ stands true false false t) ∧
    (fl.opened = true → (k.word, T) ∈ k.waitTable →
      (∃ t, exec (.waits a f) s = .next t ∧ stands false true fl.s t) ∧
      (∃ t, exec (.waitc a f) s = .next t ∧ stands true true (!fl.s) t))) ∧
  (∀ (a : Issue) (s : State) (i : Issuer) (w : Wait), s.waiting a = some (i, w) →
    let ends := fun (t : State) => s.CtxFrame t a ∧ t.ctxAt a = { s.ctxAt a with lineAt := i.beat, wait := none }
    (w.opened = false → w.latch = true → i.beat < w.issued + w.timeout →
      ∃ t, exec (.waitComplete a) s = .next t ∧ ends t) ∧
    (w.opened = true → w.latch = true → i.beat = w.issued + w.timeout →
      ∃ t, exec (.openWaitComplete a) s = .next t ∧ ends t) ∧
    (w.latch = false → exec (.waitComplete a) s = .next s ∧ exec (.openWaitComplete a) s = .next s) ∧
    (w.issued + w.timeout ≤ i.beat → ¬(w.opened = true ∧ w.latch = true) →
      ∃ t, exec (.waitTimeout a) s = .next t ∧ (t.ctxAt a).tout = satAdd (s.ctxAt a).tout 1 ∧
        Tab.get 0 (t.flt a.die).cnt 0x14 = satAdd (Tab.get 0 (s.flt a.die).cnt 0x14) 1 ∧
        ((t.tenant i.tenant).st = .halted ∨
          ∃ r x, (t.tenant i.tenant).run = some r ∧ r.halting = some x ∧ x.h ≤ i.beat)))

/-- R229: a participant arrives at a barrier of its tenant; the episode is complete when the last has, and holds the
beat of the latest arrival. Other barriers are unchanged. R230: a complete die or package episode sends the SET of its
flag to every participant, due 32 or 48 beats after the last arrival, and the barrier's next episode begins. -/
def Obligations.ArrivalsCount : Prop :=
  (∀ (a : Issue) (f : SyncSlot) (s : State) (i : Issuer), s.issuer a = some i →
    let me := clKey a.die a.phys
    ∃ t, exec (.arrive a f) s = .next t ∧ t = { s with barriers := t.barriers } ∧
      t.barriers.length = s.barriers.length ∧
      ∀ (j : Nat) (x : Barrier), s.barriers[j]? = some x →
        (x.tenant = i.tenant → x.number = f.flag → me ∈ x.members → me ∉ x.arrivedBy →
          t.barriers[j]? = some { x with arrivedBy := me :: x.arrivedBy, last := Nat.max x.last i.beat,
                                         complete := decide (∀ m ∈ x.members, m ∈ me :: x.arrivedBy) }) ∧
        (x.tenant ≠ i.tenant ∨ x.number ≠ f.flag ∨ me ∉ x.members ∨ me ∈ x.arrivedBy → t.barriers[j]? = some x)) ∧
  (∀ (tenant number : Nat) (s : State) (x : Barrier),
    s.barriers.find? (fun x => x.tenant = tenant && x.number = number && x.complete && x.scope < 2) = some x →
    x.members.Nodup →
    ∃ t, exec (.barrierRelease tenant number) s = .next t ∧
      (∀ y ∈ t.barriers, y.tenant = tenant → y.number = number →
        y.arrivedBy = [] ∧ y.last = 0 ∧ y.complete = false) ∧
      (∀ k ∈ x.members, ∀ n, (s.cluster (k / 24) (k % 24)).flagIn tenant x.flag = some n →
        (t.cluster (k / 24) (k % 24)).flagMsgs = (s.cluster (k / 24) (k % 24)).flagMsgs ++
          [{ tenant := tenant, host := false, op := .set, flag := n, due := x.last + (if x.scope = 0 then 32 else 48), loc := false }]) ∧
      (∀ k, k ∉ x.members → t.cluster (k / 24) (k % 24) = s.cluster (k / 24) (k % 24)) ∧
      t.tenants = s.tenants ∧ t.routers = s.routers ∧ t.regions = s.regions ∧ t.links = s.links)

/-- R222, R241: a flag operation through SNET_FOP, by its three codes. The owner's host operates on an open flag of
the owner's partition: it is on its way and the access answers OK. Another agent with no share is refused with AUTH,
changes no flag and is counted under cause 0x16. An absent cluster answers BOUNDS. -/
def Obligations.HostFlagOperations : Prop :=
  ∀ (a : Agent) (die cluster flag owner : Nat) (s : State), s.power.st ≠ .off →
    let fops : List Instr := [.snetFopSet a die cluster flag owner, .snetFopClr a die cluster flag owner,
      .snetFopCnt a die cluster flag owner]
    (∀ p n, s.physOf die cluster = some p → (s.cluster die p).flagIn owner flag = some n →
      ((s.cluster die p).flag n).opened = true → a.kind = .host → a.tenant = owner →
      let taken := fun (op : FlagOp) (t : State) => t.reply = { status := .ok, data := [] } ∧
        t = { s with clusters := t.clusters, reply := t.reply } ∧
        t.cluster die p = { s.cluster die p with flagMsgs := (s.cluster die p).flagMsgs ++
          [{ tenant := owner, host := true, op := op, flag := n, due := 0, loc := true }] }
      (∃ t, exec (.snetFopSet a die cluster flag owner) s = .next t ∧ taken .set t) ∧
      (∃ t, exec (.snetFopClr a die cluster flag owner) s = .next t ∧ taken .clr t) ∧
      (∃ t, exec (.snetFopCnt a die cluster flag owner) s = .next t ∧ taken .cnt t)) ∧
    (∀ c ∈ fops, ∀ p, s.physOf die cluster = some p → a.kind = .mgmt →
      ∃ t, exec c s = .next t ∧ t.reply = { status := .auth, data := [] } ∧ t.clusters = s.clusters ∧
        Tab.get 0 (t.flt die).cnt 0x16 = satAdd (Tab.get 0 (s.flt die).cnt 0x16) 1) ∧
    (∀ c ∈ fops, s.physOf die cluster = none → exec c s = .next { s with reply := { status := .bounds, data := [] } })

/-! Beats, runs, clocks and power. -/

/-- R41, R43 to R45, R47, R50, R233: a clocked region ends the beat in progress unless something is left to do on it
(notes/assumptions/19.md), and begins its next one unless a tether, a link or a gate holds it back; each hold is counted,
but none at an exposure boundary, and the beat count stays. No other region's beat count changes. R45, R411: a wrong
crossing tag, or a neighbour 3 beats away, is a breach of the tether: it is recorded under cause 0x30 and every region
stands at one beat count again; the third breach restarts First Light. Where an event's condition does not hold nothing
changes (the model's choice, notes/assumptions/8.md). -/
def Obligations.RegionBeats : Prop :=
  (∀ (region : Nat) (s : State), region < 8 → s.clocked region = true →
    let x := s.region region
    let f : State := { s.finishBeat region with pending := s.pending, part := s.part }
    let others := fun (t : State) => ∀ r, r ≠ region → t.region r = s.region r
    (s.torn region = none → s.duties region = true → exec (.regionBeatBegin region none) s = .next s) ∧
    (s.torn region = none → s.duties region = false → s.tethered region = true → f.atBoundary region = false →
      ∃ t, exec (.regionBeatBegin region none) s = .next t ∧
        t.region region = { x with ended := true, holds := x.holds + 1 } ∧
        t = { f with regions := t.regions, tenants := t.tenants } ∧ others t) ∧
    (s.torn region = none → s.duties region = false → s.tethered region = false → f.linkHeld region = true →
      f.atBoundary region = false →
      ∃ t, exec (.regionBeatBegin region none) s = .next t ∧
        t.region region = { x with ended := true, lholds := x.lholds + 1 } ∧
        t = { f with regions := t.regions, tenants := t.tenants } ∧ others t) ∧
    (s.torn region = none → s.duties region = false → s.tethered region = true ∨ f.linkHeld region = true →
      f.atBoundary region = true →
      exec (.regionBeatBegin region none) s = .next f ∧ f.region region = { x with ended := true } ∧ others f) ∧
    (s.torn region = none → s.duties region = false → s.tethered region = false → f.linkHeld region = false →
      f.gatesNext region ≠ [] →
      ∃ t, exec (.regionBeatBegin region none) s = .next t ∧
        t = { f with regions := t.regions, tenants := t.tenants, clusters := t.clusters } ∧ others t ∧
        t.region region =
          { x with ended := true, gholds := x.gholds + 1, holdFrom := some (x.holdFrom.getD s.clock.sid) }) ∧
    (s.torn region = none → s.duties region = false → s.tethered region = false → f.linkHeld region = false →
      f.gatesNext region = [] →
      ∃ t, exec (.regionBeatBegin region none) s = .next t ∧ (t.region region).beat = x.beat + 1 ∧
        (t.region region).ended = false ∧ (t.region region).holdFrom = none ∧ others t) ∧
    (∀ n, s.torn region = some n →
      exec (.regionBeatBegin region none) s = exec (.regionBeatBegin region (some n)) s)) ∧
  (∀ (region n : Nat) (s : State), region < 8 → s.clocked region = true →
    ((s.flt 0).breaches < 2 →
      ∃ t, exec (.regionBeatBegin region (some n)) s = .next t ∧
        Tab.get 0 (t.flt (region / 4)).cnt 0x30 = satAdd (Tab.get 0 (s.flt (region / 4)).cnt 0x30) 1 ∧
        (t.flt 0).breaches = (s.flt 0).breaches + 1 ∧
        (∀ r r', r < 8 → r' < 8 → (t.region r).beat = (t.region r').beat)) ∧
    (2 ≤ (s.flt 0).breaches →
      ∃ t, exec (.regionBeatBegin region (some n)) s = .next t ∧ t.boot.stage = 0 ∧ t.clock.sid = s.clock.sid))

/-- R232: the keeper announces a gate: for a launch from 1,205 ns before T, released at T; at a boundary from arrival,
released no earlier than R48 gives. R46, R233, R234, R317: a region at a gate begins the gate beat once the sidereal time,
interpolated, has reached its final release and the tenant's clusters have been switched to it; an open gate whose clusters
have not is a late boundary, counted once. `u` is the state at that moment: the time read, the beat in progress over, the
clusters of exposures that ended late switched. The first region of a launch begins exposure 0, its launch time taken from the release.
Where an event's condition does not hold nothing changes (the model's choice, notes/assumptions/8.md). A gate beat
above the furthest region is the model's choice (notes/assumptions/15.md). -/
def Obligations.GatesAreAnnounced : Prop :=
  (∀ (tenant : Nat) (s : State) (r : Run) (b : Binding),
    (s.tenant tenant).run = some r → (s.tenant tenant).binding = some b → (s.tenant tenant).st = .running →
    r.gate = none → r.halting = none → s.clocked 1 = true → s.power.moving = false →
    (r.phase = .waitLaunch → reached s.clock.sid (r.launch - nsUnits 1205) = true →
      ∃ t, exec (.gateAnnounce tenant) s = .next t ∧ s.OnlyTenant t tenant ∧
        t.tenant tenant = { s.tenant tenant with run := some ({ r with gate := some ⟨s.gateBeat r.launch, r.launch, some r.launch, [], false, []⟩ }) }) ∧
    (r.phase = .boundary →
      ∃ t g, exec (.gateAnnounce tenant) s = .next t ∧ s.OnlyTenant t tenant ∧
        t.tenant tenant = { s.tenant tenant with run := some ({ r with gate := some g }) } ∧
        g.smin = s.earliest tenant b r.arrival ∧ g.g = s.gateBeat g.smin ∧ g.s = s.release tenant b r ∧ s.topBeat < g.g)) ∧
  (∀ (region tenant : Nat) (s : State) (r : Run) (b : Binding) (g : Gate) (at_ : DWord),
    region < 8 → s.clocked region = true → tenant ∈ s.gatesNext region → s.duties region = false →
    s.tethered region = false →
    let u := (s.interpolate.finishBeat region).catchUp
    u.gatesNext region = [tenant] → (u.tenant tenant).run = some r → (u.tenant tenant).binding = some b →
    r.gate = some g → g.s = some at_ →
    (reached u.now at_ = false →
      exec (.gateStart region tenant) s = .next { u with pending := s.pending, part := s.part }) ∧
    (reached u.now at_ = true → u.switchedTo tenant = false → g.late = false →
      ∃ t, exec (.gateStart region tenant) s = .next t ∧ (t.region region).beat = (s.region region).beat ∧
        (t.tenant tenant).run = some { r with gate := some { g with late := true }, late := satAdd r.late 1 }) ∧
    (reached u.now at_ = true → u.switchedTo tenant = true → r.phase = .waitLaunch → g.begun = [] →
      ∃ t r', exec (.gateStart region tenant) s = .next t ∧ (t.region region).beat = (s.region region).beat + 1 ∧
        (t.tenant tenant).run = some r' ∧ r'.phase = .inExposure ∧ r'.exp = 0 ∧ r'.tlaunch = at_ ∧
        Tab.get 0 r'.beats region = Tab.get 0 r.beats region + 1))

/-- R47, R48, R52: a run that has ended the last beat of an exposure but the last arrives: the arrival is stamped with the
time interpolated between two edges, and the exposure counted. R48: an arrival stamp of a package of the partition on this board is held once, for the exposure in
progress or a later one. R299, R417: a run whose n exposures have ended completes: its tenant is Halted with status
OK, its record has 32 words, and its staged patches are gone. Where an event's condition does not hold nothing changes
(the model's choice, notes/assumptions/8.md). -/
def Obligations.ExposureArrives : Prop :=
  ((∀ (tenant : Nat) (s : State) (r : Run) (b : Binding),
    (s.tenant tenant).run = some r → (s.tenant tenant).binding = some b → (s.tenant tenant).st = .running →
    r.phase = .inExposure → r.gate = none → r.halting = none → r.exp + 1 < b.exps → r.ended_ b = true →
    s.quietFor tenant = true → r.stopAfter = none →
    ∃ t r', exec (.exposureArrival tenant) s = .next t ∧
      t = { s with tenants := t.tenants, links := t.links, clock := t.clock, fresh := t.fresh } ∧
      t.clock = { s.clock with phase := t.clock.phase } ∧ s.clock.phase ≤ t.clock.phase ∧
      (∀ u, u ≠ tenant → t.tenant u = s.tenant u) ∧ t.tenant tenant = { s.tenant tenant with run := some r' } ∧
      r'.phase = .boundary ∧ r'.arrival = t.now ∧ r'.exp = r.exp ∧ r'.exps = satAdd r.exps 1 ∧
      (b.scope = 0 → t.links = s.links)) ∧
  (∀ (tenant slot exp : Nat) (stamp : DWord) (s : State) (r : Run) (b : Binding),
    (s.tenant tenant).run = some r → (s.tenant tenant).binding = some b → (s.tenant tenant).st = .running →
    b.scope ≠ 0 → r.exp ≤ exp → slot ∈ b.boardPeers s.slot s.boardIndex →
    ((∀ x ∈ r.stamps, ¬(x.1 = slot ∧ x.2.1 = exp)) →
      ∃ t r', exec (.stampReceive tenant slot exp stamp) s = .next t ∧ s.OnlyTenant t tenant ∧
        t.tenant tenant = { s.tenant tenant with run := some r' } ∧ r'.stamps = r.stamps ++ [(slot, exp, stamp)]) ∧
    ((∃ x ∈ r.stamps, x.1 = slot ∧ x.2.1 = exp) → exec (.stampReceive tenant slot exp stamp) s = .next s))) ∧
  (∀ (tenant : Nat) (s : State) (r : Run) (b : Binding),
    (s.tenant tenant).run = some r → (s.tenant tenant).binding = some b → (s.tenant tenant).st = .running →
    r.phase = .inExposure → r.gate = none → r.halting = none → r.exp + 1 = b.exps → r.ended_ b = true →
    s.quietFor tenant = true →
    ∃ t r', exec (.runComplete tenant) s = .next t ∧ (t.tenant tenant).st = .halted ∧
      (t.tenant tenant).lastStatus = .ok ∧ (t.tenant tenant).record.length = 32 ∧ (t.tenant tenant).staged = [] ∧
      (t.tenant tenant).run = some r' ∧ r'.ended = true ∧ r'.tend = s.clock.sid ∧ r'.exps = satAdd r.exps 1 ∧
      (t.tenant tenant).binding = some b ∧ t.regions = s.regions)

/-- R52, R54, R53, R258, R272: board time. The sidereal counter advances by its increment in every state but Off, and
meanwhile nothing changes but the readings of the sensors, whose peaks never fall (free values, notes/assumptions/62.md); a
package with no board record, or whose ROLE says so, follows nobody; any other follows the lowest slot of the listed packages
that an UP bundle or a relay reaches and that claim leadership or, where none does, of those whose ROLE is 0, itself among
them, and a leader not heard of for 1 ms is left out of the next choice. A leader takes PTP messages of its half, its domain
and its transport and no others: a Sync is timed, at once or with its follow-up a Delay_Req leaves, and the answer gives the
offset of the four times; PTP locks within 24 ns and not beyond. Where an event's
condition does not hold nothing changes (the model's choice, notes/assumptions/8.md). -/
def Obligations.BoardTime : Prop :=
  ∀ (s : State) (peers : List PeerRole) (m : PtpMessage),
    (s.power.st ≠ .off → ∃ t, exec .siderealCounterAdvance s = .next t ∧
      t = { s with clock := { s.clock with sid := s.clock.sid + s.clock.incr.setWidth 64, phase := 0 }, power := t.power,
                   fresh := t.fresh, recent := t.recent } ∧
      t.power = { s.power with now := t.power.now, energy := t.power.energy, mv := t.power.mv, ool := t.power.ool, temp := t.power.temp,
                               peak := t.power.peak } ∧
      ∀ k, k < 64 → Tab.get 0 s.power.peak k ≤ Tab.get 0 t.power.peak k ∧
        Tab.get 0 t.power.temp k ≤ Tab.get 0 t.power.peak k) ∧
    (s.power.st = .off → exec .siderealCounterAdvance s = .next s) ∧
    (s.power.st ≠ .off → s.board = none ∨ s.clock.role = 3 →
      ∃ t, exec (.leaderChoice peers) s = .next t ∧ t.clock.leader = none ∧ t.clock.lock = false ∧
        t.clock.sysLock = false ∧ t.clock.sid = s.clock.sid ∧ t.regions = s.regions ∧ t.links = s.links) ∧
    (∀ rec, s.board = some rec → s.clock.role ≠ 3 →
      let chosen := fun (t : State) (out : Nat → Prop) =>
        let able := fun (role y : Nat) => (y = s.slot ∧ s.clock.role = role) ∨
          ∃ p ∈ peers, p.slot = y ∧ p.role = role ∧ y ∈ rec.slots ∧ ¬out y ∧ (s.hear peers).reaches y = true
        let least := fun (role y : Nat) => able role y ∧ ∀ z, able role z → y ≤ z
        (∀ y, t.clock.leader = some y ↔ least 1 y ∨ ((∀ z, ¬able 1 z) ∧ least 0 y)) ∧
        (t.clock.leader = some s.slot → t.clock.lock = true) ∧
        (t.clock.leader ≠ s.clock.leader → t.clock.leader ≠ some s.slot → t.clock.lock = false) ∧
        (t.clock.leader = s.clock.leader ∨ t.clock.leader = some s.slot ∨ s.clock.lock = true → t.clock.sid = s.clock.sid) ∧
        t.regions = s.regions
      (s.power.st ≠ .off → ∃ t, exec (.leaderChoice peers) s = .next t ∧ chosen t fun _ => False) ∧
      (∀ x, s.clock.leader = some x → x ≠ s.slot → s.elapsed s.clock.lastFseq0 1000000 = true →
        ∃ t, exec (.leaderTimeout peers) s = .next t ∧ chosen t fun y => y = x)) ∧
    (∀ x, s.clock.leader = some x → x ≠ s.slot → s.elapsed s.clock.lastFseq0 1000000 = true → s.clock.role = 3 →
      ∃ t, exec (.leaderTimeout peers) s = .next t ∧ t.clock.leader = none ∧ t.clock.lock = false) ∧
    (s.clock.leader = some s.slot → s.elapsed s.clock.lastFseq0 1000000 = true →
      exec (.leaderTimeout peers) s = .next s) ∧
    (s.takesPtp m = false → exec (.ptpMessage m) s = .next s) ∧
    (s.takesPtp m = true ↔ s.clock.leader = some s.slot ∧ s.clock.ptpEn = true ∧ s.power.st ≠ .off ∧
      m.half = (if s.eth.ptpHalf then 1 else 0) ∧ s.eth.halfUp m.half = true ∧
      m.domain = s.eth.ctl.toNat / 2 ^ 3 % 2 ^ 7 ∧ m.transport = s.eth.ctl.toNat / 2 ^ 10 % 2 ^ 2) ∧
    (s.takesPtp m = true →
      let e := s.eth
      let timed := fun (t : State) (e' : Eth) => t = { s with eth := e', clock := t.clock, fresh := t.fresh } ∧
        t.clock = { s.clock with phase := t.clock.phase } ∧ s.clock.phase ≤ t.clock.phase
      let asked := fun (t : State) => some (t.now + Config.portDelay, e.ctl.getLsbD 2)
      (∀ t1, m.kind = .sync false t1 → ∃ t, exec (.ptpMessage m) s = .next t ∧
        timed t { e with ptpT1 := t1, ptpT2 := s.interpolate.now - Config.portDelay, ptpWaits := false, ptpReq := asked t }) ∧
      (∀ t1, m.kind = .sync true t1 → ∃ t, exec (.ptpMessage m) s = .next t ∧
        timed t { e with ptpT2 := t.now - Config.portDelay, ptpWaits := true, ptpReq := none }) ∧
      (∀ t1, m.kind = .followUp t1 → e.ptpWaits = true → ∃ t, exec (.ptpMessage m) s = .next t ∧
        timed t { e with ptpT1 := t1, ptpWaits := false, ptpReq := asked t }) ∧
      (∀ t1, m.kind = .followUp t1 → e.ptpWaits = false → exec (.ptpMessage m) s = .next s) ∧
      (∀ t4, m.kind = .delayResp t4 → e.ptpReq = none → exec (.ptpMessage m) s = .next s) ∧
      (∀ t4 t3 one, m.kind = .delayResp t4 → e.ptpReq = some (t3, one) →
        let offset := ((e.ptpT2 - e.ptpT1).toInt - (t4 - t3).toInt) / 2
        ∃ t, exec (.ptpMessage m) s = .next t ∧ t.clock.offset = BitVec.ofInt 32 offset ∧
          t.clock.ptpLock = decide (-1572864 ≤ offset ∧ offset ≤ 1572864) ∧ t.clock.leader = s.clock.leader ∧
          t.clock.lock = s.clock.lock ∧ t.eth = { e with ptpReq := none }))

/-- R41, R47, R358, R359, R367: the governor. A slack below CLK_GOV STRETCH stretches the warned beat, once for however many
monitors warn of it and not at an exposure boundary; a window steps the region
down by one in an emergency and never below step 0; a voltage grant takes the pending step up. R361: a tenant whose
last 4,096 beats took more than 38,550 eighths of a nanosecond in a region it executes in has a shortfall: counted in
the region and the run, which is unrated, and recorded under cause 0x34. Where an event's condition does not hold
nothing changes (the model's choice, notes/assumptions/8.md). The figure of 38,550 eighths of a nanosecond is the
model's reading of 4,818.8 ns (notes/assumptions/98.md). -/
def Obligations.Governor : Prop :=
  (∀ (region monitor n : Nat) (s : State), region < 8 → s.clocked region = true →
    let x := s.region region
    (bitsOf (s.clkGov (region / 4)) 0 6 ≤ n →
      ∃ t, exec (.droopStretch region monitor n) s = .next t ∧ s.OnlyRegion t region ∧
        t.region region = { x with snow := n % 64 }) ∧
    (n < bitsOf (s.clkGov (region / 4)) 0 6 → x.stretched = x.beat + 1 ∨ s.atBoundary region = true →
      ∃ t, exec (.droopStretch region monitor n) s = .next t ∧ s.OnlyRegion t region ∧
        t.region region = { x with snow := n % 64 }) ∧
    (n < bitsOf (s.clkGov (region / 4)) 0 6 → x.stretched ≠ x.beat + 1 → s.atBoundary region = false →
      ∃ t, exec (.droopStretch region monitor n) s = .next t ∧
        t.region region = { x with snow := n % 64, stretches := x.stretches + 1, stretched := x.beat + 1 } ∧
        (∀ r, r ≠ region → t.region r = s.region r) ∧ t = { s with regions := t.regions, tenants := t.tenants }) ∧
    (s.power.emergency = true →
      ∃ t, exec (.governorWindow region n monitor) s = .next t ∧
        t.region region = { x with smin := n % 64, mon := monitor % 16, k := x.k - 1, pendUp := false } ∧
        (∀ r, r ≠ region → t.region r = s.region r) ∧ t = { s with regions := t.regions, pins := t.pins }) ∧
    (s.power.emergency = false → s.power.duty = 0 → x.monitorFailed = false → x.pendUp = true →
      ∃ t, exec (.governorWindow region n monitor) s = .next t ∧ s.OnlyRegion t region ∧
        t.region region = { x with smin := n % 64, mon := monitor % 16 }) ∧
    (s.power.emergency = false → x.pendUp = true →
      ∃ t, exec (.voltageGrant region) s = .next t ∧ t.region region = { x with k := x.k + 1, pendUp := false } ∧
        (∀ r, r ≠ region → t.region r = s.region r) ∧ t = { s with regions := t.regions, pins := t.pins })) ∧
  (∀ (tenant region span : Nat) (s : State) (r : Run), (s.tenant tenant).inRegion region = true →
    (s.tenant tenant).run = some r →
    (span ≤ 38550 → exec (.rateShortfall tenant region span) s = .next s) ∧
    (38550 < span →
      ∃ t r', exec (.rateShortfall tenant region span) s = .next t ∧
        (t.region region).short = satAdd (s.region region).short 1 ∧ (t.tenant tenant).run = some r' ∧
        r'.short = satAdd r.short 1 ∧ r'.rated = false ∧
        Tab.get 0 (t.flt (region / 4)).cnt 0x34 = satAdd (Tab.get 0 (s.flt (region / 4)).cnt 0x34) 1))

/-- R362, R363, R365, R438: emergencies. The first condition begins one, counted and recorded, and cancels every
pending step up; a further condition joins it; the duty rises by one to 15 and falls by one to 0 after each 100 µs;
the last condition's end ends it. A rail fault is such a condition; a thermal trip turns the package Off with its
latch set. -/
def Obligations.Emergencies : Prop :=
  ∀ (s : State) (cause rail die sensor : Nat) (noAck : Bool), s.power.st ≠ .off →
    (s.boot.ready = true → s.power.emergency = false → cause % 8 ≠ 0 →
      ∃ t, exec (.emergencyBegin cause) s = .next t ∧ t.power.emergency = true ∧
        t.power.causes = s.power.causes ||| cause % 8 ∧ t.power.emergs = satAdd s.power.emergs 1 ∧
        (∀ r, r < 8 → (t.region r).pendUp = false ∧ (t.region r).k = (s.region r).k) ∧
        Tab.get 0 (t.flt 0).cnt 0x33 = satAdd (Tab.get 0 (s.flt 0).cnt 0x33) 1) ∧
    (s.boot.ready = true → s.power.emergency = true → exec (.emergencyBegin cause) s =
      .next (if cause % 8 = 0 then s else { s with power := { s.power with causes := s.power.causes ||| cause % 8 } })) ∧
    (s.power.emergency = true → exec .emergencyEnd s =
      .next { s with power := { s.power with emergency := false, causes := 0, emergStep := s.clock.sid } }) ∧
    (s.elapsed s.power.emergStep 100000 = true → s.power.emergency = true → exec .emergencyDutyStep s =
      .next { s with power := { s.power with duty := min (s.power.duty + 1) 15, emergStep := s.clock.sid } }) ∧
    (s.elapsed s.power.emergStep 100000 = true → s.power.emergency = false → 0 < s.power.duty →
      exec .emergencyDutyStep s =
        .next { s with power := { s.power with duty := s.power.duty - 1, emergStep := s.clock.sid } }) ∧
    (rail < 3 → s.boot.stage = 6 → s.boot.ready = true → s.power.emergency = false →
      ∃ t, exec (.railFault rail noAck) s = .next t ∧ t.power.emergency = true ∧ t.power.causes.testBit 2 = true ∧
        Tab.get 0 (t.flt 0).cnt 0x35 = satAdd (Tab.get 0 (s.flt 0).cnt 0x35) 1) ∧
    (rail < 3 → s.boot.stage = 4 → exec (.railFault rail noAck) s =
      .next { s with pins := { s.pins with pkgStat := 1 }, boot := { s.boot with err := 0x32 } }) ∧
    (∃ t, exec (.thermalTrip die sensor) s = .next t ∧ t.power.st = .off ∧ t.pins.thermtrip = true ∧ t.pins.pkgStat = 0 ∧
      t.regions = [] ∧ t.clusters = [])

/-! Board links and the die networks. -/

/-- R243, R253, R257, R260, R269: the link state machine outside UP. Each row moves the link as R260 gives, at the time it
has waited, and records the move under cause 0x06; a link that locks begins IDENT with nothing exchanged and its port in its
own position, and no version stands before IDENT completes; no other link and no register of another kind changes. Where an
event's condition does not hold nothing changes (the model's choice, notes/assumptions/8.md). A lock that shows the
reference good is the model's choice (notes/assumptions/21.md). -/
def Obligations.LinkTraining : Prop :=
  ∀ (die link : Nat) (s : State), die < 2 → link < 24 →
    let l := s.link die link
    let moved := fun (l' : Link) (t : State) => t.link die link = l' ∧
      (∀ d k, linkKey d k ≠ linkKey die link → t.link d k = s.link d k) ∧
      Tab.get 0 (t.flt die).cnt 0x06 = satAdd (Tab.get 0 (s.flt die).cnt 0x06) 1 ∧
      t.tenants = s.tenants ∧ t.routers = s.routers ∧ t.clusters = s.clusters ∧ t.regions = s.regions
    let signal : Link := { l with st := .signal, reason := 0, since := s.clock.sid, ver := 0 }
    let down : Link := { l with st := .down, reason := 0, since := s.clock.sid, ver := 0 }
    (l.st = .down → l.en = true → l.retryAt = none → s.linksOn = true →
      ∃ t, exec (.linkSignalDetect die link) s = .next t ∧ moved signal t) ∧
    (∀ at_, l.st = .down → l.en = true → l.retryAt = some at_ → s.linksOn = true → reached s.clock.sid at_ = true →
      ∃ t, exec (.linkSignalRetry die link) s = .next t ∧ moved { signal with retryAt := none } t) ∧
    (∀ sw ppm, l.st = .signal → ppm ≤ 20 →
      ∃ t, exec (.linkLock die link sw ppm) s = .next t ∧
        moved { l with st := .ident, reason := 0, since := s.clock.sid, ver := 0, lanesw := sw, port := none, ident := none,
                       identRow := 0, exchanges := 0, dmax := 0, rxFrame := none, rxPart := [], rxOpen := none } t) ∧
    (∀ sw ppm, 20 < ppm → exec (.linkLock die link sw ppm) s = .next s) ∧
    (l.st = .signal → s.elapsed l.since 50000000 = true →
      ∃ t, exec (.linkSignalTimeout die link) s = .next t ∧
        moved { down with retryAt := some (s.clock.sid + nsUnits 100000000) } t) ∧
    (l.st = .ident → s.elapsed l.since 2000000 = true →
      ∃ t, exec (.linkIdentTimeout die link) s = .next t ∧ moved down t) ∧
    (l.st = .retrain → s.linksOn = true →
      ∃ t, exec (.linkTransmitterRestart die link) s = .next t ∧ moved signal t) ∧
    (l.en = false → exec (.linkSignalDetect die link) s = .next s)

/-- R253, R260, R263, R265: three records in a row that are identical but for their counter, and 64 timestamp exchanges, settle
a link. A record of this package's own serial is quarantined as a loop; a version no longer spoken is quarantined; with no
board record in force the link is OPEN. The link's latency is that of the greatest of the 64 delays. Before that nothing
happens. -/
def Obligations.LinkEvaluation : Prop :=
  ∀ (die link : Nat) (r x : IdentRecord) (s : State), die < 2 → link < 24 → (s.link die link).st = .ident →
    let l := s.link die link
    (l.identRow < 3 ∨ l.exchanges < 64 → exec (.linkIdentEvaluate die link r) s = .next s) ∧
    (3 ≤ l.identRow → 64 ≤ l.exchanges → l.ident = some x → { x with sid := 0 } = { r with sid := 0 } →
      let settled := fun (goal : LinkSt) (why : Nat) (t : State) =>
        (t.link die link).st = goal ∧ (t.link die link).reason = why ∧ (t.link die link).peer = some r ∧
        (t.link die link).lat = latOf l.dmax ∧ (t.link die link).latValid = true ∧
        (∀ d k, linkKey d k ≠ linkKey die link → t.link d k = s.link d k) ∧ t.tenants = s.tenants ∧ t.clusters = s.clusters
      (r.serial = s.part.serial → ∃ t, exec (.linkIdentEvaluate die link r) s = .next t ∧ settled .quar 1 t) ∧
      (r.serial ≠ s.part.serial → min r.vmax (vmaxOf s.part.step) < r.vmin →
        ∃ t, exec (.linkIdentEvaluate die link r) s = .next t ∧ settled .quar 2 t) ∧
      (r.serial ≠ s.part.serial → r.vmin ≤ min r.vmax (vmaxOf s.part.step) → 1 ≤ min r.vmax (vmaxOf s.part.step) →
        s.board = none → ∃ t, exec (.linkIdentEvaluate die link r) s = .next t ∧ settled .opened 0 t))

/-- R267, R433: a link leaves UP. It goes to RETRAIN, or to QUAR when this is its eighth retrain within a second; the
event is counted under cause 0x40; what it sent and was not confirmed waits to be sent again, and its scheduled
entries are dropped. The loss of a die's reference does this to each of its UP links, and to no other. R211, R267:
packets that wait for a link which has not come back to UP within 1 ms are answered and wait no longer; a link that is
UP keeps them. Where an event's condition does not hold nothing changes (the model's choice, notes/assumptions/8.md). -/
def Obligations.LinksLeaveUp : Prop :=
  (∀ (die link : Nat) (why : LeaveWhy) (s : State), die < 2 → link < 24 → (s.link die link).st = .up →
    let l := s.link die link
    let recent := l.retrains.filter fun t => !reached s.clock.sid (t + nsUnits 1000000000)
    (∃ t, exec (.linkLeaveUp die link why) s = .next t ∧
      (t.link die link).st = (if 7 ≤ recent.length then .quar else .retrain) ∧
      (t.link die link).retrain = satAdd l.retrain 1 ∧ (t.link die link).leftAt = some s.clock.sid ∧
      (t.link die link).rxSched = [] ∧ (t.link die link).txFlits = [] ∧
      Tab.get 0 (t.flt die).cnt 0x40 = satAdd (Tab.get 0 (s.flt die).cnt 0x40) 1) ∧
    (∃ t, exec (.refUlbLoss die) s = .next t ∧ (if die = 0 then t.pins.refUlb0 else t.pins.refUlb1) = false ∧
      (∀ k, k < 24 → (t.link die k).st ≠ .up) ∧
      (∀ k, k < 24 → (s.link die k).st ≠ .up → (t.link die k).st = (s.link die k).st))) ∧
  (∀ (die link : Nat) (s : State) (at_ : DWord), (s.link die link).leftAt = some at_ →
    ((s.link die link).st = .up → exec (.linkRequeueTimeout die link) s = .next s) ∧
    ((s.link die link).st ≠ .up → s.elapsed at_ 1000000 = true → (s.link die link).txPackets = [] →
      ∃ t, exec (.linkRequeueTimeout die link) s = .next t ∧ s.OnlyLink t die link ∧
        t.link die link = { s.link die link with txPackets := [], leftAt := none }))

/-- R203, R238, R244 to R249, R260, R261, R269: frames. A frame is held until the next one's PCRC judges it. One that fails on
an UP link is counted, named in the next NAK and its packets are not taken; on a link that trains it breaks the row of
records; the scheduled flits of a good one reach the station, and the credits its header returns come back; on a link without
a signal nothing is received or sent. A frame sent is 2,072 bytes with the next FSEQ modulo 16 and the pending NAK; one that is
no DATA frame carries the package's identity record and no traffic. Headers, sync entries, packets' sidebands and identity
records are read back as written, with every field at every value. Where an event's condition does not hold nothing changes
(the model's choice, notes/assumptions/8.md). What is ignored of a failed frame, and the frame held until it is judged, are
the model's readings (notes/assumptions/91.md, notes/assumptions/119.md). -/
def Obligations.LinkFrames : Prop :=
  (∀ (die link : Nat) (f : LinkFrame) (s : State), die < 2 → link < 24 →
    let l := s.link die link
    let h := readHead f.bytes
    (l.st = .up → l.rxFrame = none → f.uncor = true → l.failRow = 0 → f.maxsym < 10 → s.frameTenants die link f = [] →
      ∃ t, exec (.linkFrameReceive die link f) s = .next t ∧ (t.link die link).uncor = satAdd l.uncor 1 ∧
        (t.link die link).nak = some h.fseq ∧ (t.link die link).skipping = true ∧ (t.link die link).failRow = 1 ∧
        (t.link die link).st = .up ∧ (t.link die link).rxPackets = l.rxPackets ∧
        (t.link die link).pcrc = l.pcrc ∧ t.tenants = s.tenants ∧
        Tab.get 0 (t.flt die).cnt 0x03 = satAdd (Tab.get 0 (s.flt die).cnt 0x03) 1) ∧
    (∀ g at_, l.st = .ident → l.rxFrame = some (g, at_) → g.uncor = false → f.uncor = false → h.pcrc ≠ frameCrc g.bytes →
      h.ftype = 1 ∨ h.ftype = 2 → f.maxsym < 10 →
      ∃ t, exec (.linkFrameReceive die link f) s = .next t ∧
        t = { s with links := t.links, clock := t.clock, fresh := t.fresh, recent := t.recent } ∧
        (∀ d k, linkKey d k ≠ linkKey die link → t.link d k = s.link d k) ∧
        (t.link die link).pcrc = satAdd l.pcrc 1 ∧ (t.link die link).uncor = l.uncor ∧ (t.link die link).identRow = 0 ∧
        (t.link die link).rxPackets = l.rxPackets ∧ (t.link die link).st = .ident ∧
        (t.link die link).rxFrame = some (f, t.now)) ∧
    (l.st = .up → l.rxFrame = none → f.uncor = false → h.ftype = 1 ∨ h.ftype = 2 → f.maxsym < 10 →
      ∃ t, exec (.linkFrameReceive die link f) s = .next t ∧ (t.link die link).rxFrame = some (f, t.now) ∧
        (t.link die link).fecc = satAdd l.fecc f.corrected ∧ (t.link die link).rxPackets = l.rxPackets ∧
        (t.link die link).rxSched = l.rxSched ∧ (t.link die link).rxSync = l.rxSync ∧ t.tenants = s.tenants) ∧
    (∀ g at_ x, l.st = .up → l.rxFrame = some (g, at_) → f.uncor = false → h.pcrc = frameCrc g.bytes →
      h.ftype = 1 ∨ h.ftype = 2 → f.maxsym < 10 → s.edgeTenant die link = some x → l.rxPackets = [] →
      let k := readHead g.bytes
      let read := Taker.run { part := l.rxPart, open_ := l.rxOpen, skip := l.skipping, flits := [], packets := [] } k.kinds
        g.bytes g.resent
      k.ftype = 1 → k.fseq ∉ [0, 4, 8] → k.nakv = false → readSync (slotAt g.bytes 0) = [] → read.packets = [] →
      ∃ t, exec (.linkFrameReceive die link f) s = .next t ∧
        (t.link die link).rxSched = l.rxSched ++ read.flits.map (fun bs => { tenant := x, data := bs }) ∧
        (t.link die link).credits = (if k.crsc < 12 then Tab.modify 0 l.credits k.crsc (· - k.crn) else l.credits) ∧
        (t.link die link).failRow = 0 ∧ (t.link die link).rxFrame = some (f, t.now) ∧ t.tenants = s.tenants) ∧
    (l.st = .down ∨ l.st = .signal ∨ l.st = .retrain →
      exec (.linkFrameReceive die link f) s = .next s ∧ exec (.linkFrameSend die link) s = .next s) ∧
    (l.st = .up ∨ l.st = .ident ∨ l.st = .opened ∨ l.st = .spare ∨ l.st = .quar →
      ∃ t g k sync slots, exec (.linkFrameSend die link) s = .next t ∧
        t = { s with links := t.links, clock := t.clock, fresh := t.fresh } ∧
        (∀ d n, linkKey d n ≠ linkKey die link → t.link d n = s.link d n) ∧
        (t.link die link).out = some g ∧ g.bytes = frameBytes k sync slots ∧ slots.length ≤ 31 ∧
        k.fseq = l.fseq ∧ k.ftype = (if l.st = .up then 1 else 2) ∧ k.nakv = l.nak.isSome ∧ k.nakseq = l.nak.getD 0 ∧
        (t.link die link).fseq = (l.fseq + 1) % 16 ∧ (t.link die link).nak = none ∧
        (l.st ≠ .up → k.kinds = [0] ∧ sync = List.replicate 64 0 ∧ ∃ r, slots = [identBytes r] ∧ r.serial = s.part.serial ∧
          r.slot = s.slot ∧ r.die = die))) ∧
  (∀ (h : FrameHead) (sync : List Byte) (slots : List (List Byte)), slots.length ≤ 31 →
    (frameBytes h sync slots).length = 2072) ∧
  (∀ h : FrameHead, h.ftype < 16 → h.fseq < 16 → h.crsc < 16 → h.crn < 16 → h.kinds.length = 31 → (∀ k ∈ h.kinds, k < 4) →
    h.nakseq < 16 → h.beat < 2 ^ 20 → h.ten < 256 → h.ts < 2 ^ 48 → readHead h.bytes = h) ∧
  (∀ (t slot beat op flag tcl tdie exp status : Nat) (a : DWord), t < 256 → slot < 16 → beat < 65536 → op < 16 → flag < 256 →
    tcl < 32 → tdie < 2 → exp < 2 ^ 32 → status < 256 →
    syncOfBits (syncBits (.flagop t slot beat op flag tcl tdie)) = some (.flagop t slot beat op flag tcl tdie) ∧
    syncOfBits (syncBits (.stamp t slot exp a)) = some (.stamp t slot exp a) ∧
    syncOfBits (syncBits (.halt t slot exp status)) = some (.halt t slot exp status) ∧ syncOfBits 0 = none) ∧
  (∀ p : Packet, p.daddr < 2 ^ 48 → p.op < 16 → p.len < 512 → p.vc < 4 → p.tenant < 256 → p.srcid < 64 → p.spkg < 16 →
    p.sdie < 2 → p.tag < 65536 → p.status < 16 → p.ep < 2 → packetOfBits (sideband p) p.data = p) ∧
  (∀ r : IdentRecord, r.port < 32 → r.die < 2 → r.slot < 16 → r.vmin < 256 → r.vmax < 256 → readIdent (identBytes r) = r)

/-- R50, R196: a station's entry leaves it two beats before the beat on which the tenant's partition names the EDGE
input, the oldest flit of that tenant first, to be there on that beat; the others stay, and no beat that wants none takes
one. R222, R238, R239, R252: sync entries that arrived. A FLAGOP that no binding can place is
consumed and recorded under cause 0x05; with no entry that is ready nothing happens. A HALT ends the run of the tenant
it names, recorded under cause 0x42 with the status it carries, and is consumed also where that tenant does not run.
Where an event's condition does not hold nothing changes (the model's choice, notes/assumptions/8.md). -/
def Obligations.StationsHandOver : Prop :=
  (∀ (die link ahead : Nat) (s : State) (x : Nat × Nat),
    let p := stationPhys link
    let lane := 5 + link % 2
    x ∈ s.edgeDue die link ahead ↔ ∃ n b r, n < 16 ∧
      (let c := s.partition die p n
       s.liveBeat c.tenant (linkRegion die link) = some b ∧ (s.tenant c.tenant).run = some r ∧ c.valid = true ∧
       b + ahead < (r.exp + 1) * s.explenOf c.tenant ∧ (∃ k, (k, lane) ∈ c.named (s.router die p) (b + ahead)) ∧
       (∀ f ∈ (s.router die p).flits, ¬(f.lane = lane ∧ f.beat = b + ahead ∧ f.flit.tenant = c.tenant)) ∧
       x = (c.tenant, b + ahead))) ∧
  (∀ (die link tenant at_ : Nat) (f : Flit) (before after : List Flit) (s : State),
    s.edgeDue die link 2 = [(tenant, at_)] → (s.link die link).rxSched = before ++ f :: after → f.tenant = tenant →
    (∀ g ∈ before, g.tenant ≠ tenant) →
    ∃ t, exec (.linkSchedConsume die link) s = .next t ∧ t = { s with links := t.links, routers := t.routers } ∧
      t.link die link = { s.link die link with rxSched := before ++ after } ∧
      (t.router die (stationPhys link)).flits = (s.router die (stationPhys link)).flits ++
        [{ lane := 5 + link % 2, beat := at_, flit := f }] ∧
      (∀ d k, linkKey d k ≠ linkKey die link → t.link d k = s.link d k) ∧
      (∀ d q, clKey d q ≠ clKey die (stationPhys link) → t.router d q = s.router d q)) ∧
  (∀ (die link : Nat) (s : State), s.edgeDue die link 2 = [] ∨ (s.link die link).rxSched = [] →
    exec (.linkSchedConsume die link) s = .next s) ∧
  (∀ (die link tenant slot beat op flag tcl tdie exp status : Nat) (s : State),
    ((s.link die link).rxSync = [.flagop tenant slot beat op flag tcl tdie] → (s.tenant tenant).binding = none →
      (s.tenant tenant).run = none →
      ∃ t, exec (.flagopReceive die link) s = .next t ∧ (t.link die link).rxSync = [] ∧
        Tab.get 0 (t.flt die).cnt 0x05 = satAdd (Tab.get 0 (s.flt die).cnt 0x05) 1 ∧ t.clusters = s.clusters) ∧
    (∀ (b : Binding) (d p n now : Nat) (o : FlagOp),
      (s.link die link).rxSync = [.flagop tenant slot beat op flag tcl tdie] →
      (s.tenant tenant).binding = some b → b.place (24 * tdie + tcl) = some (d, p) → FlagOp.ofCode op = some o →
      s.liveBeat tenant (linkRegion die link) = some now → flagDueAt now beat = true →
      (s.cluster d p).flagIn tenant flag = some n →
      ∃ t, exec (.flagopReceive die link) s = .next t ∧ (t.link die link).rxSync = [] ∧
        (t.cluster d p).flagMsgs = (s.cluster d p).flagMsgs ++
          [{ tenant := tenant, host := false, op := o, flag := n, due := now - (now + 65536 - beat % 65536) % 65536 + 76, loc := false }]) ∧
    ((s.link die link).rxSync = [] → exec (.flagopReceive die link) s = .next s ∧ exec (.haltReceive die link) s = .next s) ∧
    ((s.link die link).rxSync = [.halt tenant slot exp status] → (s.tenant tenant).st ≠ .running →
      ∃ t, exec (.haltReceive die link) s = .next t ∧ s.OnlyLink t die link ∧
        t.link die link = { s.link die link with rxSync := [] }) ∧
    (∀ r, (s.link die link).rxSync = [.halt tenant slot exp status] → (s.tenant tenant).st = .running →
      (s.tenant tenant).run = some r → r.halting = none →
      ∃ t, exec (.haltReceive die link) s = .next t ∧
        Tab.get 0 (t.flt die).cnt 0x42 = satAdd (Tab.get 0 (s.flt die).cnt 0x42) 1 ∧
        ((t.tenant tenant).st = .halted ∨
          ∃ r' x, (t.tenant tenant).run = some r' ∧ r'.halting = some x ∧ x.status = Status.ofCode status)))

/-! Power states, slices, and the networks of a die. -/

/-- R57, R372 to R374, R378 to R380: idle states and wakes. Idle entries begin where R372 and R373 allow them, gate
the clocks or close the slices, and complete; a wanted wake, and a launch whose wake time has come, begin the exit, and
with the exit from Retained the slices kept in RET begin to open;
its end leaves the package Active with its regions aligned and its slices ON again, and a slow exit is recorded under
cause 0x36. Where an event's condition does not hold nothing changes (the model's choice, notes/assumptions/8.md). -/
def Obligations.PowerStates : Prop :=
  (∀ (s : State) (goal : PState), s.mayIdle goal = true →
    s.power.st = .active ∧ s.boot.ready = true ∧ s.runningTenants = [] ∧ s.trafficBusy = false ∧
      s.slicesMoving = false ∧ s.elapsed s.power.idleSince (s.power.idleUs * 1000) = true ∧ s.choose = some goal) ∧
  (∀ s : State,
    (s.mayIdle .poised = true → exec .idleEnterPoised s =
      .next { s with power := { s.power with moving := true, target := .poised, moveStart := s.clock.sid } }) ∧
    (s.mayIdle .poised = false → exec .idleEnterPoised s = .next s) ∧
    (s.mayIdle .retained = true → ∃ t, exec .idleEnterRetained s = .next t ∧
      t = { s with clusters := t.clusters, routers := t.routers, eth := { s.eth with inbox := t.eth.inbox },
                   power := { s.power with moving := true, target := .retained, moveStart := s.clock.sid } } ∧
      ∀ d p n, d < 2 → p < 24 → (t.cluster d p).slice n =
        (let x := (s.cluster d p).slice n
         if x.st = .on then x.close (s.regionOf d p).beat else x)) ∧
    (s.mayIdle .retained = false → exec .idleEnterRetained s = .next s) ∧
    (s.power.moving = true → s.power.target = .poised → ∃ t, exec .entryComplete s = .next t ∧
      t = { s with regions := t.regions, power := { s.power with st := .poised, moving := false } } ∧
      ∀ r, r < 8 → t.region r = { s.region r with lock := true, gated := true, pendUp := false, k := 1 }) ∧
    (s.power.moving = true → s.power.target = .retained → s.slicesMoving = false →
      (∀ e ∈ s.clusters, ∀ n, (e.2.slice n).st ≠ .on) → ∃ t, exec .entryComplete s = .next t ∧
      t = { s with regions := t.regions, clusters := t.clusters, pins := t.pins,
                   power := { s.power with st := .retained, moving := false } } ∧
      t.pins = { s.pins with rail0 := 0, rail1 := 0, rail2 := 500 } ∧
      (∀ r, r < 8 → (t.region r).lock = false) ∧
      ∀ d p, (t.cluster d p).spad = (s.cluster d p).spad ∧ (t.cluster d p).dsram = (s.cluster d p).dsram ∧
        (t.cluster d p).lines = (s.cluster d p).lines ∧ (t.cluster d p).flags = (s.cluster d p).flags ∧
        (t.cluster d p).ctxs = (s.cluster d p).ctxs ∧ ∀ n, (t.cluster d p).xreg n = 0) ∧
    (s.power.moving = false → exec .entryComplete s = .next s)) ∧
  (∀ (s : State) (tenant : Nat), s.power.st ≠ .off → s.power.st ≠ .active → s.power.moving = false →
    let opened := if s.power.st = .retained ∨ s.power.target = .retained then s.openKept else s
    let begun : State := { opened with power := { s.power with moving := true, target := .active, moveStart := s.clock.sid,
                                                               wakes := [] } }
    (∀ d p n, d < 2 → p < 24 → (s.openKept.cluster d p).slice n =
      (let x := (s.cluster d p).slice n
       if x.st = .ret ∧ x.target = .on then
         { x with held := none, st := .opening, fromOff := false, since := (s.regionOf d p).beat }
       else x)) ∧
    (s.power.wakes ≠ [] → exec .wakeExit s = .next begun) ∧
    (s.power.wakes = [] → s.fabricWaiting = false → s.excluded = false → (∀ e ∈ s.tenants, s.launchDue e.2 = false) →
      exec .wakeExit s = .next s) ∧
    (∀ r, (s.tenant tenant).st = .running → (s.tenant tenant).run = some r → r.phase = .waitLaunch →
      (reached s.clock.sid (r.launch - nsUnits (s.power.st.exitNs + 1205)) = true →
        exec (.launchWakeStart tenant) s = .next begun) ∧
      (reached s.clock.sid (r.launch - nsUnits (s.power.st.exitNs + 1205)) = false →
        exec (.launchWakeStart tenant) s = .next s))) ∧
  (∀ (s : State) (ns : Nat), s.power.moving = true → s.power.target = .active → s.power.st = .retained →
    ∃ t, exec (.exitComplete ns) s = .next t ∧ t.power.st = .active ∧ t.power.moving = false ∧
      t.power.exits = satAdd s.power.exits 1 ∧ t.power.wakelat = min ns 0xFFFFFF ∧ t.power.wakeFrom = 2 ∧
      (∀ r r', r < 8 → r' < 8 → (t.region r).lock = true ∧ (t.region r).k = 1 ∧ (t.region r).beat = (t.region r').beat) ∧
      (∀ d p n, d < 2 → p < 24 → ((s.cluster d p).slice n).target = .on →
        ((s.cluster d p).slice n).st = .ret ∨
          ((s.cluster d p).slice n).st = .opening ∧ ((s.cluster d p).slice n).fromOff = false →
        ((t.cluster d p).slice n).st = .on) ∧
      Tab.get 0 (t.flt 0).cnt 0x36 =
        (if 45000 < ns then satAdd (Tab.get 0 (s.flt 0).cnt 0x36) 1 else Tab.get 0 (s.flt 0).cnt 0x36))

/-- R190 to R194: a slice changes state. TARGET is the keeper's, held while the slice is in transition; a slice that a Bound,
Armed or Running tenant declares is aimed at nothing but ON (answered BUSY, the model's choice, notes/assumptions/104.md). A
slice that leaves ON waits for the probe of every source and for every write before it: g is the beat after the last, or
65,537 beats after its close, with DTO and cause 0x31; it is OFF or RET 64 beats after g; a slice from OFF
comes up with zeros after 33,408 beats, one from RET with its contents after 640. R185, R186, R188: the scrubber reads
the next row of an ON slice on an idle read beat, at most once in INTERVAL beats; a single-bit error it meets is
counted, recorded under cause 0x01 and kept, and the write-back of an idle write beat corrects one row. With INTERVAL 0, or
a port in use, it does nothing. Where an event's condition does not hold nothing changes (the model's choice,
notes/assumptions/8.md). -/
def Obligations.SliceStates : Prop :=
  ((∀ (a : Agent) (die cluster p n : Nat) (v : Word) (t' : SliceTarget) (s : State),
    s.power.st ≠ .off → s.physOf die cluster = some p → s.pstate die p ≠ 2 → s.pstate die p ≠ 3 → v.getLsbD 6 = false →
    SliceTarget.ofCode (bitsOf v 0 2) = some t' →
    let x := (s.cluster die p).slice n
    let beat := (s.regionOf die p).beat
    let becomes := fun (y : Slice) => ∃ t, exec (.spadPwrWrite a die cluster n v) s = .next t ∧
      t = { s with clusters := t.clusters, routers := t.routers, eth := { s.eth with inbox := t.eth.inbox },
                   reply := { status := .ok, data := [] } } ∧
      (t.cluster die p).slice n = y ∧ (t.cluster die p).spad = (s.cluster die p).spad
    (a.kind = .keeper → s.declared die p n = true → t' ≠ .on →
      exec (.spadPwrWrite a die cluster n v) s = .next { s with reply := { status := .busy, data := [] } }) ∧
    (a.kind = .keeper → x.moving = true → s.declared die p n = false ∨ t' = .on → becomes { x with held := some t' }) ∧
    (a.kind = .keeper → x.st = .on → t' ≠ .on → s.declared die p n = false →
      becomes { x with target := t', held := none, st := .closing, since := beat, probes := [], drained := none,
                       probeAt := beat }) ∧
    (a.kind = .keeper → x.st = .off → t' = .on →
      becomes { x with target := .on, held := none, st := .opening, fromOff := true, since := beat }) ∧
    (a.kind = .keeper → x.st = .off → t' = .ret → s.declared die p n = false → becomes { x with target := .ret, held := none }) ∧
    (a.kind = .keeper → x.st = .ret → x.target = .ret → t' = .on →
      becomes { x with target := .on, held := none, st := .opening, fromOff := false, since := beat }) ∧
    (a.kind ≠ .keeper → x.target ≠ t' → ∃ t, exec (.spadPwrWrite a die cluster n v) s = .next t ∧
      t.reply = { status := .auth, data := [] } ∧ t.clusters = s.clusters ∧
      Tab.get 0 (t.flt die).cnt 0x16 = satAdd (Tab.get 0 (s.flt die).cnt 0x16) 1)) ∧
  (∀ (a : Agent) (die cluster n : Nat) (v : Word) (s : State), s.power.st ≠ .off → s.physOf die cluster = none →
    exec (.spadPwrWrite a die cluster n v) s = .next { s with reply := { status := .bounds, data := [] } }) ∧
  (∀ (die phys n src : Nat) (s : State),
    let x := (s.cluster die phys).slice n
    let beat := (s.regionOf die phys).beat
    let becomes := fun (c : Instr) (y : Slice) => ∃ t, exec c s = .next t ∧ s.OnlySlice t die phys n ∧
      (t.cluster die phys).slice n = y
    let mine := fun (b : Buffered) => b.src = src ∧ sliceOf (addrOff b.pkt.daddr) = n
    (∀ before b after, (s.router die phys).arrived = before ++ b :: after → (∀ y ∈ before, ¬mine y) → mine b →
      s.isProbe die phys b.pkt = true → b.pkt.srcid = src →
      (∀ y ∈ x.waiting ++ x.landing, ¬(y.src = src ∧ y.at_ = beat)) →
      ∃ t, exec (.drainProbeArrive die phys n src) s = .next t ∧
        (t.cluster die phys).slice n = { x with probes := src :: x.probes, probeAt := beat } ∧
        (t.router die phys).arrived = before ++ after ∧ (t.cluster die phys).spad = (s.cluster die phys).spad ∧
        ∀ d q, clKey d q ≠ clKey die phys → t.cluster d q = s.cluster d q) ∧
    ((∀ b ∈ (s.router die phys).arrived, ¬mine b) → exec (.drainProbeArrive die phys n src) s = .next s) ∧
    (x.st = .closing → x.drained = none → (∀ k ∈ s.drainSources die phys, k ∈ x.probes) → x.landing = [] →
      (∀ w ∈ x.waiting, w.pkt.op ≠ 1) →
      becomes (.sliceDrainComplete die phys n) { x with drained := some (max x.since (max x.probeAt x.commitAt) + 1) }) ∧
    (∀ k ∈ s.drainSources die phys, k ∉ x.probes → exec (.sliceDrainComplete die phys n) s = .next s) ∧
    (∀ k ∈ s.drainSources die phys, k ∉ x.probes → x.st = .closing → x.drained = none → x.since + 65536 ≤ beat →
      ∃ t, exec (.sliceDrainTimeout die phys n) s = .next t ∧
        (t.cluster die phys).slice n = { x with drained := some (x.since + 65537), dto := true } ∧
        Tab.get 0 (t.flt die).cnt 0x31 = satAdd (Tab.get 0 (s.flt die).cnt 0x31) 1) ∧
    (beat < x.since + 65536 → exec (.sliceDrainTimeout die phys n) s = .next s) ∧
    (∀ g, n < 4 → x.st = .closing → x.drained = some g → g + 64 ≤ beat → x.held = none → x.target = .off →
      ∃ t, exec (.sliceCloseDone die phys n) s = .next t ∧ s.OnlyCluster t die phys ∧
        ((t.cluster die phys).slice n).st = .off ∧ ((t.cluster die phys).slice n).target = .off ∧
        ∀ j, Tab.get 0 (t.cluster die phys).spad j =
          if n * sliceBytes ≤ j ∧ j < (n + 1) * sliceBytes then 0 else Tab.get 0 (s.cluster die phys).spad j) ∧
    (∀ g, x.st = .closing → x.drained = some g → g + 64 ≤ beat → x.held = none → x.target = .ret →
      becomes (.sliceCloseDone die phys n) { x with st := .ret, drained := none, probes := [], scrubFix := [] }) ∧
    (∀ g, x.st = .closing → x.drained = some g → g + 64 ≤ beat → x.held = none → x.target = .on →
      s.power.st = .active → s.power.moving = false →
      becomes (.sliceCloseDone die phys n) { x with st := .opening, drained := none, probes := [], scrubFix := [],
                                                    fromOff := false, since := beat }) ∧
    (n < 4 → x.st = .opening → x.fromOff = true → x.since + 33408 ≤ beat → x.held = none →
      ∃ t, exec (.sliceOpenDone die phys n) s = .next t ∧ s.OnlyCluster t die phys ∧
        ((t.cluster die phys).slice n).st = .on ∧
        ∀ j, Tab.get 0 (t.cluster die phys).spad j =
          if n * sliceBytes ≤ j ∧ j < (n + 1) * sliceBytes then 0 else Tab.get 0 (s.cluster die phys).spad j) ∧
    (x.st = .opening → x.fromOff = false → x.since + 640 ≤ beat → x.held = none →
      becomes (.sliceOpenDone die phys n) { x with st := .on, fromOff := false, scrubLast := beat }) ∧
    (beat < x.since + 640 → exec (.sliceOpenDone die phys n) s = .next s))) ∧
  (∀ (die phys n : Nat) (s : State),
    let x := (s.cluster die phys).slice n
    let beat := (s.regionOf die phys).beat
    let k := s.scrubInterval die phys
    let ready : Prop := x.st = .on ∧ k ≠ 0 ∧ x.scrubLast + k ≤ beat ∧ s.portIdle die phys n false = true
    (ready → (∀ w ∈ x.ce ++ x.ue, w / 64 ≠ x.scrubRow) → ∃ t, exec (.scrubRead die phys n) s = .next t ∧
      s.OnlySlice t die phys n ∧
      (t.cluster die phys).slice n =
        { x with scrubRow := (x.scrubRow + 1) % 32768, scrubLast := beat, readAt := beat + 1 }) ∧
    (∀ w, ready → x.ue = [] → x.ce = [w] → w / 64 = x.scrubRow → ∃ t, exec (.scrubRead die phys n) s = .next t ∧
      (t.cluster die phys).slice n = { x with scrubRow := (x.scrubRow + 1) % 32768, scrubLast := beat,
                                              readAt := beat + 1, scrubFix := x.scrubFix ++ [w], ceCount := satAdd x.ceCount 1 } ∧
      Tab.get 0 (t.flt die).cnt 0x01 = satAdd (Tab.get 0 (s.flt die).cnt 0x01) 1) ∧
    (k = 0 ∨ s.portIdle die phys n false = false → exec (.scrubRead die phys n) s = .next s) ∧
    (∀ w ws, x.st = .on → x.scrubFix = w :: ws → s.portIdle die phys n true = true →
      ∃ t, exec (.scrubWriteback die phys n) s = .next t ∧ s.OnlySlice t die phys n ∧
      (t.cluster die phys).slice n = { x with ce := x.ce.filter fun v => decide (¬(v ∈ x.scrubFix ∧ v / 64 = w / 64)),
                                              scrubFix := x.scrubFix.filter (fun v => v / 64 ≠ w / 64),
                                              writeAt := beat + 1 }) ∧
    (x.scrubFix = [] → exec (.scrubWriteback die phys n) s = .next s))

/-- R196 to R202, R217, R412: a router follows the entry of a partition whose plate is live, once on a beat: the
tenant's flits of the beat leave it, each for the outputs that name its input, at the lane's cost; a violation halts
the plate on that beat, recorded under cause 0x11. The readback that R412 asks for records its origin under cause
0x12. Where an event's condition does not hold nothing changes (the model's choice, notes/assumptions/8.md). -/
def Obligations.ScheduledFlits : Prop :=
  (∀ (die phys m b : Nat) (parity : Bool) (s : State), die < 2 → phys < 24 → s.routerOut die phys = false → m < 16 →
    (s.partition die phys m).valid = true → (∀ n, n < 16 → n ≠ m → (s.partition die phys n).valid = false) →
    s.liveBeat (s.partition die phys m).tenant (regionKey die phys) = some b →
    let cfg := s.partition die phys m
    let r := s.router die phys
    let bad := violations r (s.cluster die phys) cfg b
    (Tab.get 0 r.switched cfg.tenant = b + 1 → exec (.ephemerisSwitch die phys parity) s = .next s) ∧
    (Tab.get 0 r.switched cfg.tenant ≠ b + 1 → bad = [] → ∃ t, exec (.ephemerisSwitch die phys parity) s = .next t ∧
      (t.router die phys).flits = (r.flits.filter fun f => !(f.flit.tenant = cfg.tenant && f.beat ≤ b)) ∧
      t.sflit die phys = (s.sflit die phys + (cfg.named r b).length) % 2 ^ 64 ∧ t.flt0 = s.flt0 ∧ t.flt1 = s.flt1 ∧
      ∀ k i f d q j, (k, i) ∈ cfg.named r b → 1 ≤ k → k ≤ 4 → f ∈ r.present cfg.tenant b i →
        laneNext die phys k = some (d, q, j) →
        { lane := j, beat := b + laneCost k, flit := f } ∈ (t.router d q).flits) ∧
    (Tab.get 0 r.switched cfg.tenant ≠ b + 1 → bad ≠ [] → ∃ t, exec (.ephemerisSwitch die phys parity) s = .next t ∧
      (∀ v, bad = [v] → Tab.get 0 (t.flt die).cnt 0x11 = satAdd (Tab.get 0 (s.flt die).cnt 0x11) 1) ∧
      t.HaltedBy cfg.tenant b)) ∧
  (∀ (die seq : Nat) (complete differs stray : Bool) (s : State),
    let ring := (s.flt die).ring
    ((∀ x ∈ ring, ¬(x.seq = seq ∧ x.cause = 0x11)) →
      exec (.schedOriginCheck die seq complete differs stray) s = .next s) ∧
    (∀ r, ring.find? (fun r => r.seq = seq && r.cause = 0x11) = some r →
      (∀ x ∈ ring, x.cause ≠ 0x12) → (∀ e ∈ (s.flt die).lastAt, e.1 ≠ faultPlace 0x12 r.phys) →
      ∃ t x, exec (.schedOriginCheck die seq complete differs stray) s = .next t ∧
        (t.flt die).ring.head? = some x ∧ x.cause = 0x12 ∧ x.phys = r.phys ∧ x.tenant = r.tenant ∧
        Tab.get 0 (t.flt die).cnt 0x12 = satAdd (Tab.get 0 (s.flt die).cnt 0x12) 1 ∧
        x.detail = BitVec.ofNat 64 (seq + 4294967296 *
          (if complete = false ∨ s.elapsed r.sid 10000000 = true then 3
           else if differs = true ∨ stray = true ∨ r.detail.getLsbD 14 = true ∨
             s.readbackDiffers die (r.detail.toNat / 256 % 16) = true then 2 else 1)) ∧
        t.clusters = s.clusters ∧ t.routers = s.routers))

/-- R205 to R207, R211, R216: unscheduled packets. The one packet that wants an output and has a credit goes to the next
router's input with the sub-channel of its entry, one packet a lane and beat; on a lane that scheduled traffic holds it
stalls, counted once a beat in BNET_UWAIT; one that cannot
travel is answered with FAULT and recorded under cause 0x17; a trailing packet is delivered once its three fences have
come. Where an event's condition does not hold nothing changes (the model's choice, notes/assumptions/8.md). Credits
are judged from the buffers, the model's choice (notes/assumptions/85.md). -/
def Obligations.PacketsTravel : Prop :=
  (∀ (die phys lane : Nat) (b : Buffered) (s : State), die < 2 → phys < 24 → s.routerOut die phys = false →
    ((s.router die phys).heads.filter fun x => s.wants die phys x.pkt = lane) = [b] →
    let r := s.router die phys
    let now := (s.regionOf die phys).beat + 1
    (s.answeredHere die phys b = true → ∃ t, exec (.unschedForward die phys lane) s = .next t ∧
      Tab.get 0 (t.flt die).cnt 0x17 = satAdd (Tab.get 0 (s.flt die).cnt 0x17) 1 ∧ t.clusters = s.clusters) ∧
    (s.answeredHere die phys b = false → Tab.get 0 r.sentAt lane ≠ now → s.laneBusy die phys lane = true → r.waitedAt ≠ now →
      ∃ t, exec (.unschedForward die phys lane) s = .next t ∧
        t = { s with regs := t.regs, routers := t.routers, recent := t.recent } ∧
        t.router die phys = { r with waitedAt := now } ∧
        t.reg (clSite die phys) 0x6028 0 = satAdd (s.reg (clSite die phys) 0x6028 0) 1) ∧
    (s.answeredHere die phys b = false → Tab.get 0 r.sentAt lane = now → exec (.unschedForward die phys lane) s = .next s) ∧
    (∀ d q i, s.answeredHere die phys b = false → s.endsHere die phys b.pkt = false → Tab.get 0 r.sentAt lane ≠ now →
      s.laneBusy die phys lane = false → s.credit die phys lane b = true → 1 ≤ lane → lane ≤ 4 → laneNext die phys lane = some (d, q, i) →
      ∃ t, exec (.unschedForward die phys lane) s = .next t ∧
        { b with lane := i, sub := nextSub (s.routeOf die phys b.pkt) lane b.sub } ∈ (t.router d q).bufs ∧
        t.clusters = s.clusters ∧
        (s.eth.inbox = [] → r.outbox = [] → 6 ≤ phys → phys < 18 → (t.router die phys).bufs = r.bufs.erase b ∧ t.links = s.links))) ∧
  (∀ (die phys lane : Nat) (s : State), ((s.router die phys).heads.filter fun x => s.wants die phys x.pkt = lane) = [] →
    exec (.unschedForward die phys lane) s = .next s) ∧
  (∀ (die phys : Nat) (b : Buffered) (rest : List Buffered) (s : State),
    (s.router die phys).trailing = b :: rest →
    let r := s.router die phys
    ((∀ v, v < 4 → v ≠ b.pkt.vc → (sourceKey b.pkt, v) ∈ r.fences) → ∃ t, exec (.trailingRelease die phys) s = .next t ∧
      s.OnlyRouter t die phys ∧ (t.router die phys).trailing = rest ∧ (t.router die phys).arrived = r.arrived ++ [b] ∧
      (t.router die phys).bufs = r.bufs) ∧
    (r.fences = [] → exec (.trailingRelease die phys) s = .next s))

/-- R175, R176, R181, R184, R187, R193, R204, R213, R311: a write or read request at the port of its destination. Where its
answer has room it leaves the port: outside the tenant's apertures it is answered BOUNDS, at a dark slice DARK, counted and recorded under cause
0x15; with its slice port in use it waits for an idle beat; else it takes the port, a read is answered with the bytes as they
stand, and a write's bytes land at the end of the beat, when it is answered. A request to unit-local space reaches the data
SRAM within the tenant's windows, on a beat on which its port is idle, and is answered BOUNDS outside them. Where an event's condition does not hold
nothing changes (the model's choice, notes/assumptions/8.md). -/
def Obligations.RequestsAreServed : Prop :=
  ∀ (die phys : Nat) (s : State), s.routerOut die phys = false → (s.router die phys).outbox = [] →
    (s.router die phys).room 0 6 = true →
    let r := s.router die phys
    let now := (s.regionOf die phys).beat
    let others := fun (t : State) => ∀ d q, clKey d q ≠ clKey die phys → t.router d q = s.router d q ∧ t.cluster d q = s.cluster d q
    let answer := fun (p : Packet) (st : Status) (data : List Byte) =>
      ({ lane := 0, sub := 6, src := phys, phys := 31,
         pkt := { (answerTo p st data) with ep := epochBit (s.dieOf die).epoch } } : Buffered)
    (∀ (op : Nat) (c : Instr), (c, op) ∈ [(.bnetWriteArrive die phys, 1), (.bnetReadArrive die phys, 2)] →
      ((∀ y ∈ r.arrived, y.pkt.op ≠ op) → exec c s = .next s) ∧
      ∀ b : Buffered, r.arrived.find? (fun y => y.pkt.op = op && !s.isProbe die phys y.pkt) = some b →
        addrSpace b.pkt.daddr = 0 →
        let n := sliceOf (addrOff b.pkt.daddr)
        let x := (s.cluster die phys).slice n
        let gone := fun (t : State) => (t.router die phys).arrived = r.arrived.erase b ∧ others t ∧
          (t.cluster die phys).spad = (s.cluster die phys).spad
        (s.allowed die phys b.pkt = false → ∃ t, exec c s = .next t ∧ gone t ∧ t.clusters = s.clusters ∧
          (t.router die phys).bufs = r.bufs ++ [answer b.pkt .bounds []]) ∧
        (s.allowed die phys b.pkt = true → x.darkFor b.src now = true → ∃ t, exec c s = .next t ∧ gone t ∧
          (t.router die phys).bufs = r.bufs ++ [answer b.pkt .dark []] ∧
          (t.cluster die phys).slice n = { x with darkCount := satAdd x.darkCount 1 } ∧
          Tab.get 0 (t.flt die).cnt 0x15 = satAdd (Tab.get 0 (s.flt die).cnt 0x15) 1) ∧
        (s.allowed die phys b.pkt = true → x.darkFor b.src now = false →
          (x.waiting ≠ [] ∨ s.portIdle die phys n (op = 1) = false) → ∃ t, exec c s = .next t ∧ gone t ∧
          (t.router die phys).bufs = r.bufs ∧
          (t.cluster die phys).slice n =
            { x with waiting := x.waiting ++ [{ lane := b.lane, src := b.src, at_ := now, pkt := b.pkt }] })) ∧
    (∀ b : Buffered, r.arrived.find? (fun y => y.pkt.op = 2 && !s.isProbe die phys y.pkt) = some b →
      addrSpace b.pkt.daddr = 0 →
      let n := sliceOf (addrOff b.pkt.daddr)
      let x := (s.cluster die phys).slice n
      s.allowed die phys b.pkt = true → x.darkFor b.src now = false → x.waiting = [] → s.portIdle die phys n false = true →
      (s.cluster die phys).clean → b.pkt.len ≠ 0 → ∃ t, exec (.bnetReadArrive die phys) s = .next t ∧ others t ∧
        (t.router die phys).arrived = r.arrived.erase b ∧
        (t.router die phys).bufs = r.bufs ++ [answer b.pkt .ok ((s.cluster die phys).read (addrOff b.pkt.daddr) b.pkt.len)] ∧
        (t.cluster die phys).slice n = { x with readAt := now + 1 } ∧
        (t.cluster die phys).spad = (s.cluster die phys).spad) ∧
    (∀ b : Buffered, r.arrived.find? (fun y => y.pkt.op = 1 && !s.isProbe die phys y.pkt) = some b →
      addrSpace b.pkt.daddr = 0 →
      let n := sliceOf (addrOff b.pkt.daddr)
      let x := (s.cluster die phys).slice n
      s.allowed die phys b.pkt = true → x.darkFor b.src now = false → x.waiting = [] → s.portIdle die phys n true = true →
      b.pkt.len ≠ 0 → ∃ t, exec (.bnetWriteArrive die phys) s = .next t ∧ others t ∧
        (t.router die phys).arrived = r.arrived.erase b ∧ (t.router die phys).bufs = r.bufs ∧
        (t.cluster die phys).slice n = { x with writeAt := now + 1, landing := x.landing ++
          [{ lane := b.lane, src := b.src, at_ := now, pkt := b.pkt }] } ∧
        (t.cluster die phys).spad = (s.cluster die phys).spad) ∧
    (∀ (op : Nat) (c : Instr), (c, op) ∈ [(.bnetWriteArrive die phys, 1), (.bnetReadArrive die phys, 2)] →
      ∀ b : Buffered, r.arrived.find? (fun y => y.pkt.op = op && !s.isProbe die phys y.pkt) = some b →
        addrSpace b.pkt.daddr = 1 →
        let k := s.cluster die phys
        let off := addrOff b.pkt.daddr
        let own := b.pkt.vc < 3 ∧ ∀ j, j < b.pkt.len → k.inWindow b.pkt.tenant (off + j) = true
        let served := fun (st : Status) (bs : List Byte) (t : State) => others t ∧
          (t.router die phys).arrived = r.arrived.erase b ∧ (t.router die phys).bufs = r.bufs ++ [answer b.pkt st bs]
        (¬own → b.pkt.vc < 4 → ∃ t, exec c s = .next t ∧ served .bounds [] t ∧ t.clusters = s.clusters) ∧
        (own → s.dportIdle die phys = false → exec c s = .next s) ∧
        (own → s.dportIdle die phys = true → op = 2 → ∃ t, exec c s = .next t ∧
          served .ok (Tab.getRun 0 k.dsram off b.pkt.len) t ∧ t.clusters = s.clusters) ∧
        (own → s.dportIdle die phys = true → op = 1 → ∃ t, exec c s = .next t ∧ served .ok [] t ∧
          t.cluster die phys = { k with dwin := k.dwin ++ [(off, b.pkt.data.take b.pkt.len)] })) ∧
    (∀ (k : Nat) (w : Access), k < 4 → ((s.cluster die phys).slice k).landing = [w] → w.pkt.op = 1 →
      (∀ n, n < 4 → n ≠ k → ((s.cluster die phys).slice n).landing = []) → (s.cluster die phys).clean →
      let t := s.commitLanding die phys
      let off := addrOff w.pkt.daddr
      ((t.cluster die phys).slice k).landing = [] ∧ ((t.cluster die phys).slice k).commitAt = now ∧
      (t.router die phys).bufs = r.bufs ++ [answer w.pkt .ok []] ∧
      ∀ j, Tab.get 0 (t.cluster die phys).spad j =
        if off ≤ j then (w.pkt.data.take w.pkt.len).getD (j - off) (Tab.get 0 (s.cluster die phys).spad j)
        else Tab.get 0 (s.cluster die phys).spad j) ∧
    (∀ (k : Nat) (w : Access), ((s.cluster die phys).slice k).waiting = [w] → ((s.cluster die phys).slice k).st = .on →
      s.pstate die phys < 2 →
      (s.portIdle die phys k (w.pkt.op = 1) = false → exec (.unschedSliceAccess die phys k) s = .next s) ∧
      (s.portIdle die phys k (w.pkt.op = 1) = true → w.pkt.op = 2 → w.pkt.len ≠ 0 → (s.cluster die phys).clean →
        ∃ t, exec (.unschedSliceAccess die phys k) s = .next t ∧ ((t.cluster die phys).slice k).waiting = [] ∧
          (t.router die phys).bufs =
            r.bufs ++ [answer w.pkt .ok ((s.cluster die phys).read (addrOff w.pkt.daddr) w.pkt.len)] ∧
          (t.cluster die phys).spad = (s.cluster die phys).spad))

/-- R209, R210: epochs. On the flip beat the epoch changes and the drain begins; once no router holds a packet of the
old epoch and each has been quiet for 16 beats it ends, and a change of routes that waited is made; 65,536 beats after
the flip the old packets are discarded, DTO set in every router and cause 0x32 recorded. Where an event's condition
does not hold nothing changes (the model's choice, notes/assumptions/8.md). The flip beat of a change that waited is
the model's choice (notes/assumptions/17.md). -/
def Obligations.EpochsDrain : Prop :=
  ∀ (die : Nat) (s : State), die < 2 →
    let d := s.dieOf die
    (∀ f, d.flipAt = some f → f ≤ s.topBeat → d.draining = false → ∃ t, exec (.epochFlip die) s = .next t ∧
      t = { s with die0 := t.die0, die1 := t.die1 } ∧ t.dieOf (1 - die) = s.dieOf (1 - die) ∧
      t.dieOf die = { d with epoch := !d.epoch, flipAt := none, draining := true, drainFrom := f }) ∧
    (∀ f, d.flipAt = some f → s.topBeat < f → exec (.epochFlip die) s = .next s) ∧
    (d.draining = true → s.undrained die = [] →
      (∀ p, p < 24 → s.routerOut die p = true ∨ (s.router die p).quiet + 16 ≤ (s.regionOf die p).beat) →
      d.drainFrom + 16 ≤ s.topBeat →
      (s.sparing = [] → d.rewant = false → ∃ t, exec (.epochDrained die) s = .next t ∧
        t = { s with die0 := t.die0, die1 := t.die1, routers := t.routers, eth := { s.eth with inbox := t.eth.inbox } } ∧
        t.dieOf die = { d with draining := false } ∧ t.dieOf (1 - die) = s.dieOf (1 - die)) ∧
      (s.sparing = [] → d.rewant = true → d.flipAt = none → ∃ t, exec (.epochDrained die) s = .next t ∧
        t.dieOf die = { d with draining := false, rewant := false, flipAt := some (s.topBeat + 48) })) ∧
    (s.undrained die ≠ [] → exec (.epochDrained die) s = .next s) ∧
    (d.draining = true → d.drainFrom + 65536 ≤ s.topBeat → s.sparing = [] → ∃ t, exec (.epochDrainTimeout die) s = .next t ∧
      (t.dieOf die).draining = false ∧ t.undrained die = [] ∧ (∀ p, p < 24 → t.reg (clSite die p) 0x6004 0 = 16) ∧
      Tab.get 0 (t.flt die).cnt 0x32 = satAdd (Tab.get 0 (s.flt die).cnt 0x32) 1 ∧ t.clusters = s.clusters) ∧
    (s.topBeat < d.drainFrom + 65536 → exec (.epochDrainTimeout die) s = .next s)

/-! Registers and windows. -/

/-- R7, R8, R9, R37, R214: the row of a single register is the access to that register's address. An access the address
rules refuse is answered BOUNDS, one to a listed slot that nothing reaches FAULT, counted under cause 0x17, and a package
that is Off answers none. The words of a burst write go to one register one after the other, the last standing (shown of
the tenant selector of the TIME block). Where an event's condition does not hold nothing
changes (the model's choice, notes/assumptions/8.md). That Off answers nothing is the model's reading
(notes/assumptions/82.md). -/
def Obligations.RegisterRowsAreAccesses : Prop :=
  (∀ (a : Agent) (die cluster k : Nat) (v : Word) (s : State) (c : Instr) (cl off : Nat),
    die < 2 → cluster < 24 → s.slot < 16 → k < 24 →
    ((c, cl, off) ∈ [(.bnetEwdataHiWrite a die cluster v, cluster, 0x6010), (.bnetRtdataWrite a die cluster v, cluster, 0x6018),
        (.seqWinWrite a die cluster .lwin v, cluster, 0x0010), (.seqWinWrite a die cluster .dwin v, cluster, 0x0014),
        (.spadPwrWrite a die cluster (k % 4) v, cluster, 0x5010 + 4 * (k % 4)), (.tenApLocWrite a die v, 0x1F, 0x5014),
        (.tenApSizeWrite a die v, 0x1F, 0x5018), (.clkGovWrite a die v, 0x1F, 0x000C)] →
      exec c s = exec (.registerWrite a (s.regAddr die cl off) 4 (v, [])) s) ∧
    exec (.ethCtlModeWrite a v) s = exec (.registerWrite a (s.regAddr 0 0x1F 0x4008) 4 (v, [])) s ∧
    ((c, cl, off) ∈ [(.timeSidLoRead a die, 0x1F, 0x8000), (.timeTBeatLoRead a die, 0x1F, 0x802C),
        (.mxaColsLoRead a die cluster (k % 2), cluster, 0x100C + 0x1000 * (k % 2)),
        (.bnetEwdataLoRead a die cluster, cluster, 0x600C), (.bnetSflitLoRead a die cluster, cluster, 0x6030),
        (.lnkPserLoRead a die k, 0x1F, 0x2010 + 256 * k), (.tenObsS0LoRead a die, 0x1F, 0x5028),
        (.pwrEnergyLoRead a die, 0x1F, 0x1018), (.kprMdataRead a die, 0x1F, 0x7020), (.fltRecRead a die, 0x1F, 0x6020),
        (.fltTRunRead a die, 0x1F, 0x6300)] →
      exec c s = exec (.readClear a (s.regAddr die cl off) 4) s)) ∧
  (∀ (a : Agent) (addr len : Nat) (v : Word) (more : List Word) (s : State),
    (s.power.st = .off → exec (.registerWrite a addr len (v, more)) s = .next s ∧ exec (.readClear a addr len) s = .next s) ∧
    (s.power.st ≠ .off → badAccess addr len = true →
      exec (.registerWrite a addr len (v, more)) s = .next { s with reply := { status := .bounds, data := [] } } ∧
      exec (.readClear a addr len) s = .next { s with reply := { status := .bounds, data := [] } }) ∧
    (∀ b, s.power.st ≠ .off → badAccess addr len = false → addrSlot addr ≠ s.slot → s.board = some b →
      addrSlot addr ∈ b.slots → s.homeLink 0 (addrSlot addr) = none →
      ∃ t, exec (.readClear a addr len) s = .next t ∧ t.reply = { status := .fault, data := [] } ∧ t.clusters = s.clusters ∧
        Tab.get 0 (t.flt 0).cnt 0x17 = satAdd (Tab.get 0 (s.flt 0).cnt 0x17) 1) ∧
    (∀ die, die < 2 → s.slot < 16 → s.power.st ≠ .off →
      ∃ t, exec (.registerWrite a (s.regAddr die 0x1F 0x801C) 4 (v, more)) s = .next t ∧
        t = { s with sel := t.sel, reply := { status := .ok, data := [] } } ∧
        t.selOf a (dieSite die) 0x801C = (more.getLast?.getD v) &&& 0xFF))

/-- R11, R209, R217, R451: writes of the registers of a cluster. SEQ windows are the keeper's and stay within their
stores; BNET_EWDATA_HI commits an entry of a valid partition whose tenant does not run and moves ENTRY on, else
answers BUSY; a table of the current version or under a drain is not written; an agent that may not write gets AUTH,
counted under cause 0x16, and changes nothing. A failed router answers FAULT. One staged low word for each router is
the model's reading (notes/assumptions/57.md). -/
def Obligations.ClusterRegisterWrites : Prop :=
  ∀ (a : Agent) (die cluster p : Nat) (v : Word) (s : State),
    s.power.st ≠ .off → s.physOf die cluster = some p → s.pstate die p ≠ 2 → s.pstate die p ≠ 3 →
    let site := clSite die p
    let n := (s.selOf a site 0x0008).toNat % 16
    let k := (s.cluster die p).ctx n
    let base := bitsOf v 0 8
    let size := bitsOf v 8 9
    let e := bitsOf (s.selOf a site 0x6008) 0 12
    let i := s.rtIndex a die p
    let busy : State := { s with reply := { status := .busy, data := [] } }
    let bounds : State := { s with reply := { status := .bounds, data := [] } }
    let windowed := fun (k' : Ctx) (t : State) =>
      t = { s with clusters := t.clusters, reply := { status := .ok, data := [] } } ∧ (t.cluster die p).ctx n = k' ∧
      (∀ m, m ≠ n → (t.cluster die p).ctx m = (s.cluster die p).ctx m) ∧
      ∀ d q, clKey d q ≠ clKey die p → t.cluster d q = s.cluster d q
    let refused := fun (t : State) => t.reply = { status := .auth, data := [] } ∧
      t.clusters = s.clusters ∧ t.routers = s.routers ∧ t.sel = s.sel ∧ t.regs = s.regs ∧
      Tab.get 0 (t.flt die).cnt 0x16 = satAdd (Tab.get 0 (s.flt die).cnt 0x16) 1
    (a.kind = .keeper → base + size ≤ 256 → ∃ t, exec (.seqWinWrite a die cluster .lwin v) s = .next t ∧
      windowed { k with lbase := base, lsize := size } t) ∧
    (a.kind = .keeper → base < 64 → base + size ≤ 64 → ∃ t, exec (.seqWinWrite a die cluster .dwin v) s = .next t ∧
      windowed { k with dbase := base, dsize := size } t) ∧
    (a.kind = .keeper → 256 < base + size → exec (.seqWinWrite a die cluster .lwin v) s = .next bounds ∧
      exec (.seqWinWrite a die cluster .dwin v) s = .next bounds) ∧
    (a.kind ≠ .keeper → (word32 (k.lbase % 256 + k.lsize % 512 * 256) ^^^ v) &&& 0x1FFFF ≠ 0 →
      ∃ t, exec (.seqWinWrite a die cluster .lwin v) s = .next t ∧ refused t) ∧
    (a.kind = .keeper ∨ a.kind = .mgmt → s.mayCommit die p e = true →
      ∃ t, exec (.bnetEwdataHiWrite a die cluster v) s = .next t ∧ t.reply = { status := .ok, data := [] } ∧
        (t.router die p).entry e = BitVec.ofNat 40 ((s.reg site 0x600C 0).toNat + bitsOf v 0 8 * 4294967296) ∧
        (∀ m, m ≠ e → (t.router die p).entry m = (s.router die p).entry m) ∧
        t.selOf a site 0x6008 = word32 ((e + 1) % 4096) ∧ t.clusters = s.clusters) ∧
    (a.kind = .keeper ∨ a.kind = .mgmt → s.mayCommit die p e = false →
      exec (.bnetEwdataHiWrite a die cluster v) s = .next busy) ∧
    (a.kind = .host ∨ a.kind = .remote → ∃ t, exec (.bnetEwdataHiWrite a die cluster v) s = .next t ∧ refused t) ∧
    (a.kind = .keeper → (s.dieOf die).draining = true ∨ i / 128 = epochBit (s.dieOf die).epoch →
      exec (.bnetRtdataWrite a die cluster v) s = .next busy) ∧
    (a.kind = .keeper → (s.dieOf die).draining = false → i / 128 ≠ epochBit (s.dieOf die).epoch →
      ∃ t, exec (.bnetRtdataWrite a die cluster v) s = .next t ∧
        t = { s with routers := t.routers, reply := { status := .ok, data := [] } } ∧
        Tab.get 15 (t.router die p).rt i = v.setWidth 5 ∧
        ∀ m, m ≠ i → Tab.get 15 (t.router die p).rt m = Tab.get 15 (s.router die p).rt m)

/-- R269, R274, R310, R366, R380, R449, R452: writes of the registers of a die. The keeper's aperture writes are
placed when they leave it unused or the range fits its cluster and meets no other, and are refused with BOUNDS or
BUSY; ETH_CTL MODE drops the port when it changes; CLK_GOV GUARD is kept no higher than its largest value; LNK_CTL
RETRAIN and EN act on the link, for the agents that may write it, and another agent gets AUTH. BOUNDS before BUSY is
the model's reading (notes/assumptions/70.md). -/
def Obligations.DieRegisterWrites : Prop :=
  ∀ (a : Agent) (die link : Nat) (v : Word) (s : State), s.power.st ≠ .off →
    let n := (s.selOf a (dieSite die) 0x5004).toNat % 256
    let x := s.shownAperture a die
    let moved := { x with cluster := bitsOf v 0 5, slice := bitsOf v 6 2, base := bitsOf v 8 12, valid := v.getLsbD 31 }
    let sized := { x with size := bitsOf v 0 13 }
    let ok : Reply := { status := .ok, data := [] }
    let l := s.link die link
    let placed := fun (y : Aperture) (t : State) => t = { s with tenants := t.tenants, reply := ok } ∧
      t.tenant n = (s.tenant n).putAperture y ∧ ∀ m, m ≠ n → t.tenant m = s.tenant m
    let kept := moved.cluster = x.cluster ∧ moved.slice = x.slice ∧ moved.base = x.base
    let linked := fun (l' : Link) (t : State) => t.reply = ok ∧ t.link die link = l' ∧
      (∀ d k, linkKey d k ≠ linkKey die link → t.link d k = s.link d k) ∧ t.tenants = s.tenants ∧ t.routers = s.routers
    let refused := fun (t : State) => t.reply = { status := .auth, data := [] } ∧
      t.links = s.links ∧ t.eth = s.eth ∧ t.regs = s.regs
    let recent := l.retrains.filter fun t => !reached s.clock.sid (t + nsUnits 1000000000)
    let tried : Link := { l with reason := 0, since := s.clock.sid, retrain := satAdd l.retrain 1,
                                 retrains := recent ++ [s.clock.sid] }
    (a.kind = .keeper → (moved.valid = false ∧ (x.valid = false ∨ kept)) ∨ s.judgeAperture (some (n, x.apt)) moved = .ok →
      ∃ t, exec (.tenApLocWrite a die v) s = .next t ∧ placed moved t) ∧
    (∀ st, a.kind = .keeper → moved.valid = true ∨ (x.valid = true ∧ ¬kept) →
      s.judgeAperture (some (n, x.apt)) moved = st → st ≠ .ok →
      exec (.tenApLocWrite a die v) s = .next { s with reply := { status := st, data := [] } }) ∧
    (a.kind = .keeper → x.valid = false ∨ s.judgeAperture (some (n, x.apt)) sized = .ok →
      ∃ t, exec (.tenApSizeWrite a die v) s = .next t ∧ placed sized t) ∧
    (∀ st, a.kind = .keeper → x.valid = true → s.judgeAperture (some (n, x.apt)) sized = st → st ≠ .ok →
      exec (.tenApSizeWrite a die v) s = .next { s with reply := { status := st, data := [] } }) ∧
    (a.kind = .keeper → ∃ t, exec (.ethCtlModeWrite a v) s = .next t ∧ t = { s with eth := t.eth, reply := ok } ∧
      t.eth.dual = v.getLsbD 0 ∧
      (v.getLsbD 0 ≠ s.eth.dual → t.eth.upA = false ∧ t.eth.upB = false) ∧
      (v.getLsbD 0 = s.eth.dual → t.eth.upA = s.eth.upA ∧ t.eth.upB = s.eth.upB)) ∧
    (a.kind = .keeper → ∃ t, exec (.clkGovWrite a die v) s = .next t ∧
      t = { s with regs := t.regs, pins := t.pins, reply := ok } ∧
      t.clkGov die = (v &&& 0x3FFFF) ||| word32 (min (bitsOf v 18 8) s.gmax * 2 ^ 18)) ∧
    (mayWriteLinks a = true → l.st = .quar → recent.length < 7 →
      ∃ t, exec (.lnkCtlRetrain a die link) s = .next t ∧ linked { tried with st := .retrain } t) ∧
    (mayWriteLinks a = true → l.st = .quar → 7 ≤ recent.length →
      ∃ t, exec (.lnkCtlRetrain a die link) s = .next t ∧ linked { tried with st := .quar, reason := 8 } t) ∧
    (mayWriteLinks a = true → l.st ≠ .quar → l.st ≠ .up →
      ∃ t, exec (.lnkCtlRetrain a die link) s = .next t ∧ linked l t) ∧
    (mayWriteLinks a = true → l.st = .up → ∃ t, exec (.lnkCtlRetrain a die link) s = .next t ∧ t.reply = ok ∧
      ((t.link die link).st = .retrain ∨ (t.link die link).st = .quar) ∧ (t.link die link).retrain = satAdd l.retrain 1 ∧
      Tab.get 0 (t.flt die).cnt 0x40 = satAdd (Tab.get 0 (s.flt die).cnt 0x40) 1) ∧
    (mayWriteLinks a = true → ∃ t, exec (.lnkCtlEn a die link true) s = .next t ∧ linked { l with en := true } t) ∧
    (mayWriteLinks a = true → l.st = .down →
      ∃ t, exec (.lnkCtlEn a die link false) s = .next t ∧ linked { l with en := false } t) ∧
    (mayWriteLinks a = true → l.st ≠ .down → l.st ≠ .up → ∃ t, exec (.lnkCtlEn a die link false) s = .next t ∧
      linked { l with en := false, st := .down, reason := 0, since := s.clock.sid, ver := 0 } t) ∧
    (mayWriteLinks a = true → l.st = .up → ∃ t, exec (.lnkCtlEn a die link false) s = .next t ∧ t.reply = ok ∧
      (t.link die link).st = .down ∧ (t.link die link).en = false ∧ (t.link die link).retrain = l.retrain ∧
      Tab.get 0 (t.flt die).cnt 0x40 = satAdd (Tab.get 0 (s.flt die).cnt 0x40) 1) ∧
    (mayWriteLinks a = false → (∃ t, exec (.lnkCtlRetrain a die link) s = .next t ∧ refused t) ∧
      (∀ en, ∃ t, exec (.lnkCtlEn a die link en) s = .next t ∧ refused t) ∧
      ∃ t, exec (.ethCtlModeWrite a v) s = .next t ∧ refused t)

/-- R62, R87, R217, R269, R320, R382, R402, R420: the reads that latch. Each answers the first word and keeps the
others for the agent that read, each agent's latch its own; the read of a later word answers what was latched. R10,
R175, R419, R420: a counter that reads as cleared: a read answers its value and leaves it 0, where the agent may see
it, and reads 0 and changes nothing where it may not; what came to it on the beat of the read is not in the answer and stays
in the counter. The read of a later word that was not latched answers 0, the
model's reading (notes/assumptions/56.md). -/
def Obligations.LatchedReads : Prop :=
  (∀ (a : Agent) (die cluster p arr link : Nat) (s : State),
    s.power.st ≠ .off → s.physOf die cluster = some p → s.pstate die p ≠ 2 → s.pstate die p ≠ 3 → a.tenant < 256 →
    link < 24 →
    let d := dieSite die
    let latched := fun (site off : Nat) (ws : List Word) (t : State) =>
      t = { s with latch := t.latch, reply := { status := .ok, data := [ws.headD 0] } } ∧
      (∀ i, t.latched a site off i = ws.getD i 0) ∧
      ∀ (b : Agent) site' off' i, b.tenant < 256 → agentCode b ≠ agentCode a →
        t.latched b site' off' i = s.latched b site' off' i
    (∃ t, exec (.timeSidLoRead a die) s = .next t ∧ latched d 0x8000 (halves s.clock.sid) t) ∧
    (∃ t, exec (.timeTBeatLoRead a die) s = .next t ∧
      latched d 0x802C (halves (BitVec.ofNat 64 (s.runBeats (shownTenant a (s.selOf a d 0x801C))))) t) ∧
    (∃ t, exec (.mxaColsLoRead a die cluster arr) s = .next t ∧
      latched (clSite die p) (0x100C + 0x1000 * (arr % 2)) (halves ((s.cluster die p).arr (arr % 2)).cols) t) ∧
    (∃ t, exec (.bnetEwdataLoRead a die cluster) s = .next t ∧ latched (clSite die p) 0x600C (s.entryWords a die p) t) ∧
    (∃ t, exec (.bnetSflitLoRead a die cluster) s = .next t ∧
      latched (clSite die p) 0x6030 (halves (BitVec.ofNat 64 (s.sflit die p))) t) ∧
    (∃ t, exec (.lnkPserLoRead a die link) s = .next t ∧
      latched d (0x2010 + 256 * link) (halves (((s.link die link).peer.map (·.serial)).getD 0)) t) ∧
    (∃ t, exec (.tenObsS0LoRead a die) s = .next t ∧ latched d 0x5028 (halves s.schedRegs.s0) t) ∧
    (∃ t, exec (.pwrEnergyLoRead a die) s = .next t ∧ latched d 0x1018 (halves s.power.energy) t) ∧
    (∃ t, exec (.kprMdataRead a die) s = .next t ∧
      latched (dieSite 0) 0x7020 (s.measureWords (s.selOf a (dieSite 0) 0x7018).toNat) t) ∧
    (∃ t, exec (.fltTRunRead a die) s = .next t ∧ latched d 0x6300
      (let ws := (s.tenant (shownTenant a (s.selOf a d 0x6080))).record
       if ws = [] then List.replicate 32 0 else ws) t) ∧
    (s.selectedRecord a die = none →
      ∃ t, exec (.fltRecRead a die) s = .next t ∧ latched d 0x6020 (List.replicate 8 0) t) ∧
    (∀ r, s.selectedRecord a die = some r → ∃ t, exec (.fltRecRead a die) s = .next t ∧
      t = { s with latch := t.latch, reply := { status := .ok, data := [(r.seenBy a die).headD 0] } } ∧
      ∀ i, t.latched a d 0x6020 i = (r.seenBy a die).getD i 0) ∧
    (die < 2 → s.slot < 16 → exec (.readClear a (s.regAddr die 0x1F 0x8004) 4) s =
      .next { s with reply := { status := .ok, data := [s.latched a d 0x8000 1] } })) ∧
  (∀ (a : Agent) (die cluster p c : Nat) (s : State), s.power.st ≠ .off → s.slot < 16 → die < 2 → cluster < 24 →
    s.physOf die cluster = some p → s.pstate die p ≠ 2 → s.pstate die p ≠ 3 →
    let n := (s.selOf a (clSite die p) 0x0008).toNat % 16
    let k := (s.cluster die p).ctx n
    let event := fun (site off : Nat) => Tab.get Recent.none_ s.recent (regKey site off)
    let quiet := fun (site off : Nat) => (event site off).beat ≠ s.siteBeat site + 1
    let reads := fun (cl off : Nat) (v : Word) => ∃ t, exec (.readClear a (s.regAddr die cl off) 4) s = .next t ∧
      t.reply = { status := .ok, data := [v] }
    let clears := fun (cl off : Nat) (v : Word) (P : State → Prop) =>
      ∃ t, exec (.readClear a (s.regAddr die cl off) 4) s = .next t ∧ t.reply = { status := .ok, data := [v] } ∧ P t
    (seesCtx a k = true → clears cluster 0x0024 k.held fun t => (t.cluster die p).ctx n = { k with held := 0 }) ∧
    (seesCtx a k = true → clears cluster 0x0028 k.pcoll fun t => (t.cluster die p).ctx n = { k with pcoll := 0 }) ∧
    (seesCtx a k = false → clears cluster 0x0024 0 fun t => t.clusters = s.clusters) ∧
    (quiet (clSite die p) 0x602C → clears cluster 0x602C (s.reg (clSite die p) 0x602C 0)
      fun t => t.reg (clSite die p) 0x602C 0 = 0) ∧
    (¬quiet (clSite die p) 0x602C → clears cluster 0x602C (event (clSite die p) 0x602C).before
      fun t => t.reg (clSite die p) 0x602C 0 = (event (clSite die p) 0x602C).came) ∧
    (c < 80 → privileged a = true → ¬quiet (dieSite die) (0x6100 + 4 * c) →
      clears 0x1F (0x6100 + 4 * c) (event (dieSite die) (0x6100 + 4 * c)).before fun t =>
        Tab.get 0 (t.flt die).cnt c = (event (dieSite die) (0x6100 + 4 * c)).came) ∧
    (c < 80 → privileged a = true → quiet (dieSite die) (0x6100 + 4 * c) → clears 0x1F (0x6100 + 4 * c) (Tab.get 0 (s.flt die).cnt c) fun t =>
      Tab.get 0 (t.flt die).cnt c = 0 ∧ ∀ c', c' ≠ c → Tab.get 0 (t.flt die).cnt c' = Tab.get 0 (s.flt die).cnt c') ∧
    (c < 80 → privileged a = false → clears 0x1F (0x6100 + 4 * c) 0 fun t => t.flt0 = s.flt0 ∧ t.flt1 = s.flt1) ∧
    (quiet (dieSite 0) 0x1028 → clears 0x1F 0x1028 s.power.exits fun t => t.power = { s.power with exits := 0 }) ∧
    reads 0x1F 0x8010 s.clock.offset)

/-- R150, R175, R176, R211: the host window of the data SRAM and the line store. A write inside the tenant's windows waits
for an idle beat of the port, and the management core writes the line store, but no line window of a Running plate (BUSY is
the model's choice, notes/assumptions/106.md); a read answers the bytes as they stand,
or waits while the port is in use; outside the windows BOUNDS is answered, and a fenced core answers FAULT, recorded
under 0x17. Where an event's condition does not hold nothing changes (the model's choice, notes/assumptions/8.md). The
rows that carry the line store, and the read that waits, are the model's reading (notes/assumptions/61.md). -/
def Obligations.HostWindows : Prop :=
  ∀ (a : Agent) (die cluster p off len : Nat) (data : List Byte) (s : State),
    s.power.st ≠ .off → s.physOf die cluster = some p →
    let c := s.cluster die p
    let live := s.pstate die p ≠ 2 ∧ s.pstate die p ≠ 3
    let own := fun (n : Nat) => (a.kind = .host ∨ a.kind = .remote) ∧ off + n ≤ 0x10000 ∧
      ∀ j, j < n → c.inWindow a.tenant (off + j) = true
    (live → own data.length → off < 0x10000 → ∃ t, exec (.hostDwinWrite a die cluster off data) s = .next t ∧
      t = { s with clusters := t.clusters, reply := { status := .ok, data := [] } } ∧
      t.cluster die p = { c with dwin := c.dwin ++ [(off, data)] } ∧
      ∀ d q, clKey d q ≠ clKey die p → t.cluster d q = s.cluster d q) ∧
    (live → a.kind = .mgmt → 0x10000 ≤ off → off + data.length ≤ 0x50000 →
      s.lineInUse c (off - 0x10000) data.length = true →
      exec (.hostDwinWrite a die cluster off data) s = .next { s with reply := { status := .busy, data := [] } }) ∧
    (live → a.kind = .mgmt → 0x10000 ≤ off → off + data.length ≤ 0x50000 →
      s.lineInUse c (off - 0x10000) data.length = false →
      ∃ t, exec (.hostDwinWrite a die cluster off data) s = .next t ∧
      t = { s with clusters := t.clusters, reply := { status := .ok, data := [] } } ∧
      t.cluster die p = { c with lines := Tab.setRun 0 c.lines (off - 0x10000) data }) ∧
    (live → a.kind ≠ .mgmt → ¬own data.length → exec (.hostDwinWrite a die cluster off data) s =
      .next { s with reply := { status := .bounds, data := [] } }) ∧
    (live → own len → off < 0x10000 → s.dportIdle die p = true → exec (.hostDwinRead a die cluster off len) s =
      .next { s with reply := { status := .ok, data := (Tab.getRun 0 c.dsram off len).map (·.setWidth 32) } }) ∧
    (live → own len → off < 0x10000 → s.dportIdle die p = false → exec (.hostDwinRead a die cluster off len) s = .next s) ∧
    (live → a.kind ≠ .mgmt → ¬own len → exec (.hostDwinRead a die cluster off len) s =
      .next { s with reply := { status := .bounds, data := [] } }) ∧
    (¬live → ∀ c, c = .hostDwinWrite a die cluster off data ∨ c = .hostDwinRead a die cluster off len →
      ∃ t, exec c s = .next t ∧ t.reply = { status := .fault, data := [] } ∧ t.clusters = s.clusters ∧
        Tab.get 0 (t.flt die).cnt 0x17 = satAdd (Tab.get 0 (s.flt die).cnt 0x17) 1)

/-! The command transport, transfers, sparing, First Light, pins. -/

/-- R270, R271, R273, R275 to R277, R279 to R283, R301: packets of the command transport. The port hears a frame on a half that is
up. A frame it does not take, another port's datagram and a packet whose header is not one of R276 are counted in ETH_RXBAD, a
packet that no key opens in ETH_AUTHF. The next packet in order joins the queue and is acknowledged on the half it came in on,
to the source it came from; one taken before is counted in ETH_DUP and acknowledged again; a 65th command is refused with FULL;
a HELLO with SEQ 1 begins a session under another identifier; a reserved command is answered UNSUPPORTED. A packet that is not
acknowledged in time is sent again, 16 times at most. R274, R433: a half that fails goes down, in 1.6 Tb/s mode the port;
without its reference the port is down and does not train; after READY a completed training brings up what trained; the port
answers its own protocols on the half that asked. Where an event's condition does not hold nothing changes (the model's choice,
notes/assumptions/8.md). That the latest acknowledgement and the answers are kept, and where a HELLO waits, are the model's
choice (notes/assumptions/66.md, 68.md, 122.md). -/
def Obligations.TransportPackets : Prop :=
  ((∀ (p : PortFrame) (s : State),
    let u := s.countFec p
    let counts := fun (t : State) (n : Nat) =>
      t = { u with recent := t.recent, eth := { u.eth with cnt := Tab.modify 0 u.eth.cnt n (satAdd · 1) } }
    (s.hears p = true ↔ s.power.st ≠ .off ∧ s.eth.halfUp p.half = true) ∧
    (s.hears p = false → exec (.octPacketReceive p) s = .next s ∧ exec (.arpNdEchoFrame p) s = .next s) ∧
    (s.hears p = true →
      u = { s with recent := u.recent, eth := { s.eth with cnt := u.eth.cnt } } ∧
      Tab.get 0 u.eth.cnt 8 = satAdd (Tab.get 0 s.eth.cnt 8) p.corrected ∧
      Tab.get 0 u.eth.cnt 9 = satAdd (Tab.get 0 s.eth.cnt 9) p.uncor ∧
      (s.heard p = .bad → (∃ t, exec (.octPacketReceive p) s = .next t ∧ counts t 0) ∧
        ∃ t, exec (.arpNdEchoFrame p) s = .next t ∧ counts t 0) ∧
      (s.heard p = .quiet → exec (.octPacketReceive p) s = .next u ∧ exec (.arpNdEchoFrame p) s = .next u) ∧
      (∀ f, s.heard p = .answer f → exec (.octPacketReceive p) s = .next u ∧
        exec (.arpNdEchoFrame p) s = .next { u with eth := { u.eth with frames := u.eth.frames ++ [(p.half, f.bytes)] } }) ∧
      (∀ d, s.heard p = .datagram d → exec (.arpNdEchoFrame p) s = .next u ∧
        (d.port = 319 ∨ d.port = 320 → exec (.octPacketReceive p) s = .next u) ∧
        (d.port ≠ 319 → d.port ≠ 320 → d.port ≠ s.eth.octport ∨ d.payload.length < 40 →
          ∃ t, exec (.octPacketReceive p) s = .next t ∧ counts t 0) ∧
        (d.port ≠ 319 → d.port ≠ 320 → d.port = s.eth.octport → 40 ≤ d.payload.length → s.openOct d = none →
          ∃ t, exec (.octPacketReceive p) s = .next t ∧ counts t 1)))) ∧
  (∀ (p : PortFrame) (d : Datagram) (q : OctPacket) (s : State), s.hears p = true → s.heard p = .datagram d →
    d.port ≠ 319 → d.port ≠ 320 → d.port = s.eth.octport → 40 ≤ d.payload.length → s.openOct d = some q →
    let h := q.head
    let v := s.tenant h.tenant
    let legal : Prop := h.ver = 1 ∧ h.rest = 0 ∧ h.len = q.payload.length
    let command : Prop := legal ∧ h.dir = 0 ∧ h.type = 1 ∧ v.opening = none ∧ v.xfer = none
    let orderly := fun (x : Session) => ∀ e ∈ x.queue, e.2.1 = 1 ∧ reservedCommand e.2.2 = false
    let took := fun (t : State) (y : Session) (queue : List (Nat × Nat × List Byte)) (ackseq : Nat) (full : Bool) =>
      y.queue = queue ∧ y.ackseq = ackseq ∧ y.half = q.half ∧ y.src = some q.src ∧ t.clusters = s.clusters ∧
      (∀ n, n ≠ h.tenant → t.tenant n = s.tenant n) ∧
      (let wire := y.datagram h.tenant 1 (t.sendKey h.tenant) 3 y.ackCtr (if full then some h.seq else none) []
       y.acks = [{ half := q.half, seq := h.seq, full := full, dest := some q.src, wire := wire }])
    (¬legal → ∃ t, exec (.octPacketReceive p) s = .next t ∧
      Tab.get 0 t.eth.cnt 0 = satAdd (Tab.get 0 s.eth.cnt 0) 1 ∧ t.tenant h.tenant = v.rollKey h.keyid ∧ t.clusters = s.clusters) ∧
    (∀ x, command → v.session = some x → x.id = h.session → x.heldOoo = [] → orderly x →
      (h.seq = x.ackseq + 1 → h.seq ≤ 0xFFFFFFF0 → v.commands < 64 → reservedCommand q.payload = false →
        ∃ t y, exec (.octPacketReceive p) s = .next t ∧ (t.tenant h.tenant).session = some y ∧
          took t y (x.queue ++ [(h.seq, 1, q.payload)]) h.seq false ∧ y.txseq = x.txseq ∧ y.ackCtr = x.ackCtr + 1) ∧
      (h.seq = x.ackseq + 1 → h.seq ≤ 0xFFFFFFF0 → v.commands < 64 → reservedCommand q.payload = true → x.queue = [] →
        ∃ t y r, exec (.octPacketReceive p) s = .next t ∧ (t.tenant h.tenant).session = some y ∧
          y.queue = [] ∧ y.ackseq = h.seq ∧ y.txseq = x.txseq + 1 ∧ r ∈ y.unacked ∧ r.seq = y.txseq ∧ r.type = 2 ∧
          r.payload = rspHead (fieldAt q.payload 2 2) .unsupported none 0 0 ∧ t.clusters = s.clusters) ∧
      (h.seq ≤ x.ackseq → ∃ t y, exec (.octPacketReceive p) s = .next t ∧ (t.tenant h.tenant).session = some y ∧
        took t y x.queue x.ackseq false ∧ Tab.get 0 t.eth.cnt 2 = satAdd (Tab.get 0 s.eth.cnt 2) 1) ∧
      (h.seq = x.ackseq + 1 → h.seq ≤ 0xFFFFFFF0 → 64 ≤ v.commands →
        ∃ t y, exec (.octPacketReceive p) s = .next t ∧ (t.tenant h.tenant).session = some y ∧
          took t y x.queue x.ackseq true ∧ Tab.get 0 t.eth.cnt 3 = satAdd (Tab.get 0 s.eth.cnt 3) 1)) ∧
    (command → (∀ x, v.session = some x → x.id ≠ h.session ∧ orderly x) → h.seq = 1 → h.session ≠ 0 → v.commands < 64 →
      fieldAt q.payload 0 1 = 1 → reservedCommand q.payload = false →
      ∃ t y, exec (.octPacketReceive p) s = .next t ∧ (t.tenant h.tenant).opening = some y ∧
        (t.tenant h.tenant).session = v.session ∧ y.id = h.session ∧ took t y [(1, 1, q.payload)] 1 false)) ∧
  (∀ (tenant seq : Nat) (x : Session) (q : TxPacket) (s : State), (s.tenant tenant).session = some x → x.unacked = [q] →
    q.seq = seq →
    let late := reached s.clock.sid (q.sentAt + nsUnits (x.ackt * 1000))
    (late = true → q.sends < 16 → ∃ t, exec (.octRetransmit tenant seq) s = .next t ∧
      t = { s with tenants := t.tenants, eth := t.eth, recent := t.recent } ∧
      t.tenant tenant = { s.tenant tenant with session := some ({ x with
        unacked := [{ q with sends := q.sends + 1, sentAt := s.clock.sid, half := s.eth.sendHalf x.half }] }) } ∧
      Tab.get 0 t.eth.cnt 4 = satAdd (Tab.get 0 s.eth.cnt 4) 1) ∧
    (late = true → 16 ≤ q.sends → ∃ t, exec (.octRetransmit tenant seq) s = .next t ∧
      t.tenant tenant = { s.tenant tenant with session := some ({ x with unacked := [], lost := true }) } ∧
      Tab.get 0 t.eth.cnt 5 = satAdd (Tab.get 0 s.eth.cnt 5) 1) ∧
    (late = false → (s.tenant tenant).peers = [] → (s.tenant tenant).opening = none →
      exec (.octRetransmit tenant seq) s = .next s))) ∧
  (∀ (s : State) (half : Nat) (upA upB : Bool),
    let port := fun (a b : Bool) => ({ s with eth := { s.eth with upA := a, upB := b } } : State)
    exec (.ethLinkDown half) s = .next (port (s.eth.upA && s.eth.dual && half ≠ 0) (s.eth.upB && s.eth.dual && half = 0)) ∧
    exec .refEthLoss s = .next { port false false with pins := { s.pins with refEth := false } } ∧
    exec .refEthReturn s = .next { s with pins := { s.pins with refEth := true } } ∧
    (2 ≤ s.boot.stage → s.power.st ≠ .off → s.pins.refEth = true →
      exec (.ethRetrainDone upA upB) s = .next (port upA (upB && s.eth.dual))) ∧
    (2 ≤ s.boot.stage → s.pins.refEth = false → exec (.ethRetrainDone upA upB) s = .next s))

/-- R204, R286 to R288, R290: transfers. A legal WRITE takes the segments that follow it in order and issues their units, a
legal READ those of its range, as many as the window holds; a packet that is not the segment expected ends the WRITE after the
units before it. Each answer takes its unit off, a READ keeping the bytes; the transfer completes with the status of its
units, BOUNDS after a segment that is none, once all have been answered, with the check value where it was asked for. A range
outside the aperture answers BOUNDS; every completion record carries the TSEQ. Where an event's condition does not hold nothing
changes (the model's choice, notes/assumptions/8.md). The window of 64 units and its tags are the model's choice
(notes/assumptions/20.md). -/
def Obligations.Transfers : Prop :=
  (∀ (h : CmdHead) (x : XferArgs) (segs : List (List Byte)) (s : State), s.Takes h true → s.segments h.tenant = segs →
    let v := s.tenant h.tenant
    let begun := fun (t : State) (r : Xfer) (a : Aperture) (w : Bool) => (t.tenant h.tenant).xfer = some r ∧
      r.head = h ∧ r.isWrite = w ∧ r.die = a.die ∧ r.cluster = a.cluster ∧ r.addr = a.lo + x.offset ∧ r.tseq = x.tseq ∧
      r.chk = x.chkreq ∧ r.next = min r.ready 64 ∧ r.waiting = List.range r.next ∧ t.clusters = s.clusters ∧
      ∀ u, u ≠ h.tenant → t.tenant u = s.tenant u
    (s.Asks h (xferForm 0x05 x) →
      (∀ a, xferLegal x = true → v.range x.apt x.offset x.n = some a → ∃ t r, exec (.read h x) s = .next t ∧
        begun t r a false ∧ r.n = x.n ∧ r.data = [] ∧ r.ready = unitsOf x.n) ∧
      (xferLegal x = true → v.range x.apt x.offset x.n = none →
        ∃ t, exec (.read h x) s = .next t ∧ s.Replies t h (rspHead h.tag .bounds none x.tseq 0)) ∧
      (xferLegal x = false →
        ∃ t, exec (.read h x) s = .next t ∧ s.Replies t h (rspHead h.tag .unsupported none x.tseq 0))) ∧
    (s.Asks h (xferForm 0x04 x) →
      (∀ a y j, xferLegal x = true → v.range x.apt x.offset x.n = some a → v.turn = some y → j ≤ segs.length →
        j ≤ segmentsOf x.n → (∀ i, i < j → segmentOk h.seq x.n i (segs.getD i []) = true) →
        let data := ((segs.take j).map (·.drop 16)).flatten
        (j = segmentsOf x.n ∨ y.queue.length = j + 1 → ∃ t r, exec (.write h x segs) s = .next t ∧ begun t r a true ∧
          r.n = x.n ∧ r.taken = j ∧ r.data = data ∧ r.bounds = false ∧ r.ready = unitsOf data.length) ∧
        (j < segmentsOf x.n → j + 1 < y.queue.length → (j < segs.length → segmentOk h.seq x.n j (segs.getD j []) = false) →
          ∃ t r, exec (.write h x segs) s = .next t ∧ begun t r a true ∧
            r.n = 8192 * j ∧ r.taken = j ∧ r.data = data ∧ r.bounds = true)) ∧
      (xferLegal x = true → v.range x.apt x.offset x.n = none →
        ∃ t, exec (.write h x segs) s = .next t ∧ s.Replies t h (rspHead h.tag .bounds none x.tseq 0)) ∧
      (xferLegal x = false →
        ∃ t, exec (.write h x segs) s = .next t ∧ s.Replies t h (rspHead h.tag .unsupported none x.tseq 0)))) ∧
  (∀ (die tenant op : Nat) (b : Buffered) (x : Xfer) (u : Nat) (s : State),
    (s.router die 6).arrived.find? (fun y => y.pkt.op = op && y.pkt.srcid = 40) = some b → b.pkt.tenant = tenant →
    b.pkt.tag < 32768 → (s.tenant tenant).xfer = some x → x.next = x.ready →
    x.waiting.find? (fun v => v % 32768 = b.pkt.tag) = some u → b.pkt.status = 0 →
    let answered := fun (t : State) (got : Tab (List Byte)) => ∃ y, (t.tenant tenant).xfer = some y ∧
      y.waiting = x.waiting.erase u ∧ y.got = got ∧ y.firstBad = x.firstBad ∧ y.refused = x.refused ∧ y.next = x.next ∧
      t.clusters = s.clusters
    (op = 3 → x.isWrite = false → ∃ t, exec (.bnetRdataArrive die 40) s = .next t ∧
      answered t (Tab.insert x.got u b.pkt.data)) ∧
    (op = 4 → x.isWrite = true → ∃ t, exec (.bnetWdoneArrive die 40) s = .next t ∧ answered t x.got)) ∧
  (∀ (die : Nat) (s : State), (∀ y ∈ (s.router die 6).arrived, y.pkt.op ≠ 3 ∧ y.pkt.op ≠ 4) →
    exec (.bnetRdataArrive die 40) s = .next s ∧ exec (.bnetWdoneArrive die 40) s = .next s) ∧
  (∀ (tenant : Nat) (x : Xfer) (s : State), (s.tenant tenant).xfer = some x → x.head.tenant = tenant →
    let v := checkValue (s.sharedAddr x.die x.cluster x.addr) (BitVec.ofNat 32 x.tseq)
    let ended := fun (t : State) (payload : List Byte) (chk : Option Word) => (t.tenant tenant).xfer = none ∧
      (t.tenant tenant).chk = chk.getD (s.tenant tenant).chk ∧ s.Answers t x.head payload ∧ t.clusters = s.clusters
    (x.written = true ↔
      x.isWrite = true ∧ segmentsOf x.n ≤ x.taken ∧ unitsOf x.n ≤ x.next ∧ x.waiting = []) ∧
    (x.written = true → x.chk = false ∨ x.writeStatus ≠ .ok → ∃ t, exec (.octWriteComplete tenant) s = .next t ∧
      ended t (rspHead x.head.tag x.writeStatus none x.tseq x.refused) none) ∧
    (x.written = true → x.chk = true → x.writeStatus = .ok → ∃ t, exec (.octWriteComplete tenant) s = .next t ∧
      ended t (rspHead x.head.tag .ok (some (v x.data)) x.tseq x.refused) (some (v x.data))) ∧
    (x.bounds = true → x.writeStatus = .bounds) ∧
    (x.written = false → exec (.octWriteComplete tenant) s = .next s) ∧
    (x.waiting ≠ [] → exec (.octReadComplete tenant) s = .next s) ∧
    (∀ k st, x.isWrite = false → x.waiting = [] → x.firstBad = some (k, st) → st ≠ 0 →
      ∃ t, exec (.octReadComplete tenant) s = .next t ∧
        ended t (rspHead x.head.tag (Status.ofCode st) none x.tseq (256 * k)) none) ∧
    (x.isWrite = false → x.waiting = [] → x.firstBad = none → unitsOf x.n ≤ x.next → unitsOf x.n ≤ 32 * x.sent →
      let bytes := ((List.range (unitsOf x.n)).map fun u => Tab.get [] x.got u).flatten
      (x.chk = false → ∃ t, exec (.octReadComplete tenant) s = .next t ∧
        ended t (rspHead x.head.tag .ok none x.tseq 0) none) ∧
      (x.chk = true → ∃ t, exec (.octReadComplete tenant) s = .next t ∧
        ended t (rspHead x.head.tag .ok (some (v bytes)) x.tseq 0) (some (v bytes)))))

/-- R239, R291 to R295: scale-out. A whole message in the egress buffer leaves for the package its descriptor names;
one that comes in is checked and its units wait to be injected, else it is counted in ETH_PFAIL; after the last OK its
flag is counted; a halt from another board ends the plate's run, recorded under cause 0x42. Where an event's condition
does not hold nothing changes (the model's choice, notes/assumptions/8.md). The tags of a message's units are the
model's choice (notes/assumptions/20.md). -/
def Obligations.ScaleOutMessages : Prop :=
  (∀ (d : Flit) (rest : List Flit) (b : Binding) (slot board : Nat) (s : State),
    s.power.st ≠ .off → s.eth.upA = true ∨ s.eth.upB = true → s.eth.egress = d :: rest →
    (∀ f ∈ rest, f.tenant = d.tenant) →
    (rest.length = descFlits d.data → (s.tenant d.tenant).binding = some b →
      b.destination (descOf d.data).dest = some (slot, board) → exec (.scaleoutEgress 0) s =
        .next (({ s with eth := { s.eth with egress := [] } } : State).sendPeer d.tenant board slot
          (d.data.take 32 ++ (rest.map (·.data)).flatten))) ∧
    (rest.length < descFlits d.data → exec (.scaleoutEgress 0) s = .next s)) ∧
  (∀ (die : Nat) (s : State), die ≠ 0 → exec (.scaleoutEgress die) s = .next s) ∧
  (∀ (tenant : Nat) (d : ScaleDesc) (data : List Byte) (s : State), s.power.st ≠ .off →
    ((s.tenant tenant).aperture d.apt = none → ∃ t, exec (.scaleoutReceive tenant d data) s = .next t ∧
      Tab.get 0 t.eth.cnt 7 = satAdd (Tab.get 0 s.eth.cnt 7) 1 ∧ t.clusters = s.clusters ∧
      (t.tenant tenant).inMsgs = (s.tenant tenant).inMsgs) ∧
    (∀ a, (s.tenant tenant).aperture d.apt = some a → 1 ≤ d.nfl → d.nfl ≤ 32 → d.off % 256 = 0 →
      d.off + 256 * d.nfl ≤ a.size * 4096 → data.length = 256 * d.nfl →
      ∃ t, exec (.scaleoutReceive tenant d data) s = .next t ∧ t.clusters = s.clusters ∧
        (t.tenant tenant).inMsgs = { id := freeMessage (s.tenant tenant).inMsgs, desc := d, waiting := List.range d.nfl,
                                     failed := false } :: (s.tenant tenant).inMsgs)) ∧
  (∀ (die q p f : Nat) (b : Buffered) (m : InMsg) (k : Binding) (s : State),
    (s.router die 6).arrived.find? (fun y => y.pkt.op = 4 && y.pkt.srcid = 40) = some b → 32768 ≤ b.pkt.tag →
    (s.tenant b.pkt.tenant).inMsgs.find? (fun m => m.id = b.pkt.tag % 32768 / 32) = some m →
    m.waiting = [b.pkt.tag % 32] → m.failed = false → b.pkt.status = 0 → (s.tenant b.pkt.tenant).binding = some k →
    k.place (24 * m.desc.tdie + m.desc.tcl) = some (q, p) →
    (s.cluster q p).flagIn b.pkt.tenant m.desc.flag = some f → ((s.cluster q p).flag f).opened = true →
    ∃ t, exec (.bnetWdoneArrive die 40) s = .next t ∧ (t.cluster q p).flagMsgs = (s.cluster q p).flagMsgs ++
      [{ tenant := b.pkt.tenant, op := .cnt, flag := f, due := 0, loc := false, host := false }] ∧
      (t.tenant b.pkt.tenant).inMsgs = (s.tenant b.pkt.tenant).inMsgs.filter fun x => x.id ≠ m.id) ∧
  (∀ (tenant slot board exp status : Nat) (s : State), s.power.st ≠ .off →
    ((s.tenant tenant).st ≠ .running → ∃ t, exec (.peerHaltReceive tenant slot board exp status) s = .next t ∧
      s.OnlyTenant t tenant ∧ t.tenant tenant = { s.tenant tenant with peers := popPeer false (s.tenant tenant).peers }) ∧
    (∀ r, (s.tenant tenant).st = .running → (s.tenant tenant).run = some r → r.halting = none →
      ∃ t, exec (.peerHaltReceive tenant slot board exp status) s = .next t ∧
        Tab.get 0 (t.flt 0).cnt 0x42 = satAdd (Tab.get 0 (s.flt 0).cnt 0x42) 1 ∧
        ((t.tenant tenant).st = .halted ∨ ∃ r' x, (t.tenant tenant).run = some r' ∧ r'.halting = some x ∧
          x.status = Status.ofCode status)))

/-- R24 to R28, R212, R413, R414: run-time sparing. A cluster that fails, or a router that leaves service, is fenced and
recorded, and a plate that was bound there and ran has ended; its logical number goes to the spare of its region, or becomes
absent where there is none, as both dies flip their epoch; the map's generation of both dies counts on and the change is
recorded under cause 0x22. While an epoch still drains the change of the map waits. An event whose condition is not met
changes nothing. Where an event's condition does not hold nothing changes (the model's choice, notes/assumptions/8.md). That
the runs end at once and that the map waits are the model's reading (notes/assumptions/23.md, 17.md). -/
def Obligations.Sparing : Prop :=
  (∀ (die p l : Nat) (s : State), s.sparable die p = true → s.pstate die p ≠ 2 → s.pstate die p ≠ 3 →
    s.logOf die p = some l →
    let fenced := fun (t : State) (cause state : Nat) => t.pstate die p = state ∧
      Tab.get 0 (t.flt die).cnt cause = satAdd (Tab.get 0 (s.flt die).cnt cause) 1 ∧
      ∀ u ∈ s.bindersOf die [l], (s.tenant u).binding ≠ none → (s.tenant u).run ≠ none → (t.tenant u).st ≠ .running
    let moved := fun (t : State) => (∀ d, d < 2 → t.topoGen d = s.topoGen d + 1 ∧
        (t.dieOf d).epoch = !(s.dieOf d).epoch ∧ (t.dieOf d).draining = true ∧ (t.dieOf d).flipAt = none) ∧
      Tab.get 0 (t.flt die).cnt 0x22 = satAdd (Tab.get 0 (s.flt die).cnt 0x22) 1 ∧ t.sparing = [] ∧
      (s.standIn die p l = none → t.physOf die l = none) ∧
      ∀ q, s.standIn die p l = some q → s.pstate die q = 1 → s.logOf die q = none →
        t.physOf die l = some q ∧ t.logOf die q = some l ∧ t.pstate die q = 0 ∧
          ∀ m, m ≠ l → m < 24 → t.physOf die m = s.physOf die m
    let waits := fun (t : State) (state : Nat) => (∃ x, t.sparing = s.sparing ++ [x] ∧ x.die = die ∧ x.phys = p ∧ x.state = state) ∧
      ∀ d m, t.physOf d m = s.physOf d m ∧ t.topoGen d = s.topoGen d
    (s.sparing = [] → s.die0.draining = false → s.die1.draining = false →
      (∃ t, exec (.sparingOccult die p 1) s = .next t ∧ fenced t 0x20 3 ∧ moved t) ∧
      ∃ t, exec (.routerOut die p 4) s = .next t ∧ fenced t 0x21 2 ∧ moved t) ∧
    (s.die0.draining = true ∨ s.die1.draining = true →
      (∃ t, exec (.sparingOccult die p 1) s = .next t ∧ fenced t 0x20 3 ∧ waits t 3) ∧
      ∃ t, exec (.routerOut die p 4) s = .next t ∧ fenced t 0x21 2 ∧ waits t 2)) ∧
  (∀ (die p : Nat) (s : State),
    (s.rowsFailed die p = false → exec (.sparingOccult die p 2) s = .next s) ∧
    (s.originRouter die p = false → exec (.routerOut die p 3) s = .next s) ∧
    (s.pstate die p = 2 → exec (.routerOut die p 4) s = .next s ∧ exec (.sparingOccult die p 1) s = .next s))

/-- R85, R87, R108, R147, R169, R313, R314, R317: the observing schedule. At the start of a slot every cluster whose plate is not
in an exposure runs the context of the slot's owner, its core cleared of what another tenant left in it; an exposure is never
cut; the memories and flags stay. A new schedule takes the old one's place at its S0, and the plates that do not own every
slot rotate. Where an event's condition does not hold nothing changes (the model's choice, notes/assumptions/8.md). -/
def Obligations.ObservingSchedule : Prop :=
  (∀ (x : Sched) (s : State), s.sched = some x → x.nslot ≠ 0 → reached s.clock.sid x.s0 = true →
    (∀ d l p, s.physOf d l = some p → p < 24 ∧ ∀ m, s.physOf d m = some p → l = m) →
    let slot := x.slotsSince s.clock.sid % x.nslot
    ∃ t, exec .obsSlotStart s = .next t ∧ t = { s with clusters := t.clusters, slotNow := slot } ∧
      ∀ d l p, d < 2 → l < 24 → p < 24 → s.physOf d l = some p →
        let c := s.cluster d p
        let now := c.running.map fun k => (c.ctx k).tenant
        let next := x.ownerOf slot d l
        (t.cluster d p).spad = c.spad ∧ (t.cluster d p).dsram = c.dsram ∧ (t.cluster d p).flags = c.flags ∧
        (t.cluster d p).ctxs = c.ctxs ∧
        ((∃ u, now = some u ∧ s.exposing u = true) → t.cluster d p = c) ∧
        (now = next → t.cluster d p = c) ∧
        ((∀ u, now = some u → s.exposing u = false) → now ≠ next →
          (next = none → t.cluster d p = { c with running := none }) ∧
          ∀ u, next = some u → (t.cluster d p).running = c.ctxOf u ∧ (t.cluster d p).occupant = some u ∧
            (∀ o, c.occupant = some o → o ≠ u → (∀ n, (t.cluster d p).xreg n = 0 ∧ (t.cluster d p).vcore n = VCore.init) ∧
              (t.cluster d p).a0 = c.a0.handOver ∧ (t.cluster d p).a1 = c.a1.handOver) ∧
            (c.occupant = none ∨ c.occupant = some u →
              t.cluster d p = { c with running := c.ctxOf u, occupant := some u }))) ∧
  (∀ s : State, s.sched = none → exec .obsSlotStart s = .next s) ∧
  (∀ (x : Sched) (s : State), s.nextSched = some x →
    (reached s.clock.sid x.s0 = false → exec .scheduleEffect s = .next s) ∧
    (reached s.clock.sid x.s0 = true → ∃ t, exec .scheduleEffect s = .next t ∧ t.sched = some x ∧ t.nextSched = none ∧
      t.slotNow = x.slotsSince s.clock.sid % x.nslot ∧ Tab.get 0 t.fw.meas 8 = x.digest ∧ t.clusters = s.clusters ∧
      (∀ u, (t.tenant u).st = (s.tenant u).st ∧ (t.tenant u).run = (s.tenant u).run) ∧
      ∀ u b, (s.tenant u).binding = some b → (t.tenant u).binding =
        some { b with rotating := !((List.range x.nslot).all fun k => x.owns u b k) }))

/-- R384, R387 to R393, R397, R398: First Light and the watchdogs. A bad identity record stops at stage ID; the port
mode alternates while no link is up; the port's coming up opens the boot session and asks for Meridian; an object that
does not come is asked for again; an accepted Meridian image makes Almanac the object wanted, a failed object is
counted; an operator record accepted ends in stage TEST with FWMIN never lowered; a revocation only adds bits; the
self-test ends in READY or stops. A fault of Almanac is recorded under cause 0x37 and Almanac is fetched again; one of
Meridian restarts First Light. Where an event's condition does not hold nothing changes (the model's choice,
notes/assumptions/8.md). When a stage completes and when a failed object is asked for again are the model's reading
(notes/assumptions/11.md, 12.md). -/
def Obligations.FirstLight : Prop :=
  (∀ s : State, s.boot.stage = 0 → s.pins.pkgStat ≠ 1 → s.power.st ≠ .off → s.part.recordOk = false →
    ∃ t, exec .portModeSearch s = .next t ∧ t.boot.stage = 0 ∧ t.boot.err = 0x11 ∧ t.pins.pkgStat = 1) ∧
  (∀ s : State, s.boot.stage = 1 →
    (s.eth.upA = false → s.eth.upB = false → exec .portModeSearch s =
      .next { s with eth := { s.eth with dual := s.boot.searchMode % 2 = 1 },
                     boot := { s.boot with searchMode := s.boot.searchMode + 1 } }) ∧
    (s.eth.upA = true → exec .portModeSearch s = .next s) ∧
    (∀ upB, s.power.st ≠ .off → s.pins.refEth = true → ∃ t y, exec (.ethRetrainDone true upB) s = .next t ∧
      t.eth.upA = true ∧ t.boot.stage = 2 ∧ t.boot.want = 1 ∧ t.boot.tries = 1 ∧ t.boot.requests = s.boot.requests + 1 ∧
      (t.tenant 0).session = some y ∧ y.id = (Config.entropy s.boot.entropyUsed).toNat ∧ y.unacked.length = 1)) ∧
  (∀ s : State, s.fetching = true →
    (s.elapsed s.boot.lastRequest s.boot.interval = true → ∃ t, exec .bootreqTimeout s = .next t ∧
      t.boot = { s.boot with fails := s.boot.fails + 1, tries := s.boot.tries + 1, requests := s.boot.requests + 1,
                             lastRequest := s.clock.sid } ∧ t.part = s.part) ∧
    (s.elapsed s.boot.lastRequest s.boot.interval = false → exec .bootreqTimeout s = .next s) ∧
    (∀ rsa slh bs, s.boot.want = 1 → s.imageError rsa slh bs = 0 → ∃ t,
      exec (.bootObjectReceive (.image rsa slh bs)) s = .next t ∧ t.boot.want = 2 ∧ t.boot.tries = 1 ∧
      t.boot.meridianSvn = (parseImage bs).svn ∧
      Tab.get 0 t.fw.meas 2 = Config.sha384 (bs.take (64 + (parseImage bs).blen)) ∧ t.part = s.part) ∧
    (∀ rsa slh bs, s.boot.want = 1 ∨ s.boot.want = 2 → s.imageError rsa slh bs ≠ 0 → ∃ t,
      exec (.bootObjectReceive (.image rsa slh bs)) s = .next t ∧ t.boot.err = s.imageError rsa slh bs ∧
      t.boot.fails = s.boot.fails + 1 ∧ t.boot.want = s.boot.want ∧
      t.boot.tries = (if s.boot.fails + 1 < 8 then s.boot.tries + 1 else s.boot.tries) ∧ t.part = s.part) ∧
    (∀ r, s.boot.want = 3 → s.operatorOk r = true → ∃ t, exec (.bootObjectReceive (.operator r)) s = .next t ∧
      t.boot.stage = 4 ∧ t.pins.pkgStat = 3 ∧ t.part.fwmin = max s.part.fwmin r.fwmin ∧
      t.part.revoked = s.part.revoked ∧ (t.tenant 0).keyid = r.keyid ∧ t.fw.signers = r.signers ∧
      t.eth.octport = r.octport) ∧
    (∀ r, ∃ t, exec (.bootObjectReceive (.revocation r)) s = .next t ∧ s.part.revoked &&& t.part.revoked = s.part.revoked ∧
      t = { s with part := { s.part with revoked := t.part.revoked } })) ∧
  (∀ (s : State) (o : BootObject), s.fetching = false →
    exec (.bootObjectReceive o) s = .next s ∧ exec .bootreqTimeout s = .next s) ∧
  (∀ (s : State) (fs : List ClusterFinding) (die1 rails : Bool), s.boot.stage = 4 → s.pins.pkgStat ≠ 1 →
    s.part.die1Present = true →
    (die1 = false → exec (.selfTestComplete fs die1 rails) s =
      .next { s with pins := { s.pins with pkgStat := 1 }, boot := { s.boot with err := 0x31 } }) ∧
    (die1 = true → rails = false → exec (.selfTestComplete fs die1 rails) s =
      .next { s with pins := { s.pins with pkgStat := 1 }, boot := { s.boot with err := 0x32 } }) ∧
    (die1 = true → rails = true → ∃ t, exec (.selfTestComplete fs die1 rails) s = .next t ∧
      t.boot = { s.boot with stage := 6, ready := true } ∧ t.pins.pkgStat = 2 ∧ (t.tenant 0).st = .opened ∧
      (∀ d, d < 2 → t.topoGen d = 1) ∧ (∀ r, r < 8 → (t.region r).lock = true ∧ (t.region r).k = 1) ∧
      (∀ d l, d < 2 → l < 24 → placeOf s.part.grade (clusterState fs d) l = none → t.physOf d l = none) ∧
      ∀ d p n, d < 2 → p < 24 → n < 4 →
        let f := (findingOf fs d p).slices.getD n { banks := [] }
        let x := (t.cluster d p).slice n
        x.rows = spareRows f ∧ x.cols = spareCols f ∧ x.fail = sliceFail f ∧
          (clusterState fs d p = 0 → x.st = .opening ∧ x.target = .on))) ∧
  (∀ s : State, s.boot.stage = 6 →
    let fell := fun (t : State) => t.fw.almanacUp = false ∧ t.boot.want = 2 ∧ t.boot.tries = 1 ∧
      Tab.get 0 (t.flt 0).cnt 0x37 = satAdd (Tab.get 0 (s.flt 0).cnt 0x37) 1 ∧ t.clusters = s.clusters
    (s.fw.almanacUp = true → (∃ t, exec .almanacWatchdog s = .next t ∧ fell t) ∧
      ∃ t, exec .managementCoreException s = .next t ∧ fell t) ∧
    (s.fw.almanacUp = false → exec .almanacWatchdog s = .next s ∧ exec .managementCoreException s = .next s)) ∧
  (∀ s : State, s.power.st ≠ .off → ∃ t, exec .meridianWatchdog s = .next t ∧ t.boot.stage = 0 ∧ t.pins.pkgStat = 6 ∧
    t.clock.sid = s.clock.sid ∧ t.clusters = [] ∧ t.tenants = [] ∧ t.part = s.part)

/-- R388, R429 to R433, R438, R440: pins and the test access port. A supply, reset or reference that falls takes the
package to Off with nothing kept; its return begins First Light at stage ID unless a trip is latched, the supplies are
not good or a boundary scan holds the package; the test port's instructions select their registers, those that drive
the pins take the package to Off, and a reset of the test port after them begins First Light. Where an event's
condition does not hold nothing changes (the model's choice, notes/assumptions/8.md). That the supplies are good when
PWRGD or RESET_N rises is the model's choice (notes/assumptions/11.md). -/
def Obligations.PinsAndTestPort : Prop :=
  ∀ (s : State) (straps : Nat),
    let cold := { s.pins with slewAvs := 0, slewTdo := 0, slewStat := 0, rail0 := 0, rail1 := 0, rail2 := 0,
                              transition := 0, pkgStat := if s.pins.thermtrip then 0 else 7 }
    let offWith := fun (t : State) (pins : Pins) => t.power.st = .off ∧ t.pins = pins ∧
      t.clusters = [] ∧ t.tenants = [] ∧ t.regions = [] ∧ t.links = [] ∧ t.part = s.part
    let scanned := fun (t : State) (ir : Nat) => offWith t cold ∧ t.tap = { ir := ir, dataOut := none, holdsOff := true }
    let begun := fun (t : State) (slot : Nat) => t.boot.stage = 0 ∧ t.power.st = .active ∧
      t.pins.pkgStat = 6 ∧ t.pins.slot = slot ∧ t.clusters = [] ∧ t.tenants = [] ∧ t.part = s.part
    (∃ t, exec .pwrgdFall s = .next t ∧ offWith t { cold with pwrgd := false }) ∧
    (∃ t, exec .resetAssert s = .next t ∧ offWith t { cold with resetN := false }) ∧
    (∃ t, exec .refAonLoss s = .next t ∧ offWith t { cold with refAon := false }) ∧
    (∃ t, exec .vddAonLoss s = .next t ∧ offWith t { cold with vddAon := false, thermtrip := false, pkgStat := 7 }) ∧
    (s.pins.resetN = false → s.pins.pwrgd = true → s.pins.thermtrip = false → s.tap.holdsOff = false →
      ∃ t, exec (.resetRelease straps) s = .next t ∧ begun t (straps % 16)) ∧
    (s.pins.resetN = false → s.pins.pwrgd = false → exec (.resetRelease straps) s =
      .next { s with pins := { s.pins with resetN := true } }) ∧
    (s.pins.resetN = true → exec (.resetRelease straps) s = .next s) ∧
    (s.pins.pwrgd = false → s.pins.resetN = true → s.pins.thermtrip = false → s.tap.holdsOff = false →
      ∃ t, exec (.pwrgdRise straps) s = .next t ∧ begun t (straps % 16)) ∧
    (s.pins.pwrgd = false → s.pins.resetN = false ∨ s.pins.thermtrip = true → ∃ t, exec (.pwrgdRise straps) s = .next t ∧
      t.pins.pwrgd = true ∧ t.boot = s.boot ∧ t.power = s.power) ∧
    (let id := BitVec.ofNat 32 ((if s.part.step = 0xB0 then 2 else 1) * 268435456 + s.part.grade * 4096 + 0x5CB)
     exec .idcode s = .next { s with tap := { ir := 0x01, dataOut := some id, holdsOff := s.tap.holdsOff } } ∧
     (s.tap.holdsOff = false → exec .tapReset s = .next { s with tap := { ir := 0x01, dataOut := some id, holdsOff := false } })) ∧
    exec .samplePreload s = .next { s with tap := { ir := 0x02, dataOut := none, holdsOff := s.tap.holdsOff } } ∧
    exec .bypass s = .next { s with tap := { ir := 0xFF, dataOut := none, holdsOff := s.tap.holdsOff } } ∧
    (∃ t, exec .extest s = .next t ∧ scanned t 0x03) ∧
    (∃ t, exec .clamp s = .next t ∧ scanned t 0x04) ∧
    (∃ t, exec .highz s = .next t ∧ scanned t 0x05) ∧
    (∃ t, exec .extestPulse s = .next t ∧ scanned t 0x06) ∧
    (∃ t, exec .extestTrain s = .next t ∧ scanned t 0x07) ∧
    (s.tap.holdsOff = true → s.pins.pwrgd = true → s.pins.resetN = true → s.pins.vddAon = true → s.pins.refAon = true →
      s.pins.thermtrip = false → ∃ t, exec .tapReset s = .next t ∧ begun t (s.pins.slot % 16))

/-! Host commands. `s.Takes h fabric` says that a command can run now, `s.Asks h form` that it stands at the front of its
tenant's queue in that form. -/

/-- R279, R284, R300 to R302, R304, R305, R372 to R374, R399, R401: the commands of sessions and tenants. HELLO sets
ACKT, and its session takes the place of the one before; OPEN opens a tenant with its key, grant and apertures, or installs
a key; CLOSE returns it to Closed with its apertures zero; QUERY and ATTEST answer and change nothing; SET_WAKE_BUDGET
keeps the budget. Illegal fields answer UNSUPPORTED, the operator's commands from another tenant AUTH, a wrong state
STATE. A Closed tenant's commands and those of a package that is Off do nothing, nor does a command whose turn has not come.
Where an event's condition does not hold nothing changes (the model's choice, notes/assumptions/8.md). A command that must
wait is given again, and CLOSE needs the fabric and idle ports (notes/assumptions/80.md, 79.md, 108.md). -/
def Obligations.TenantCommands : Prop :=
  (∀ (h : CmdHead) (s : State), s.Takes h false →
    let v := s.tenant h.tenant
    let kept := fun (t : State) (v' : Tenant) => s.OnlyTenant t h.tenant ∧ t.tenant h.tenant =
      { v' with session := (t.tenant h.tenant).session, opening := (t.tenant h.tenant).opening }
    let report := leBytes 1 v.st.code ++ leBytes 1 s.slot ++ wordBytes (s.topoGen 0)
    (∀ x ackt, v.turn = some x → s.Asks h (helloForm ackt) →
      (4 ≤ ackt → ackt ≤ 1000 → v.inForce = true → ∃ t y, exec (.hello h x.id ackt) s = .next t ∧ kept t v ∧
        (t.tenant h.tenant).session = some y ∧ y.id = x.id ∧ y.ackt = ackt ∧ s.Answers t h (rspOf h .ok ++ report)) ∧
      (4 ≤ ackt → ackt ≤ 1000 → v.inForce = false → ∃ t y, exec (.hello h x.id ackt) s = .next t ∧
        (t.tenant h.tenant).session = some y ∧ (t.tenant h.tenant).opening = none ∧ y.id = x.id ∧ y.ackt = ackt ∧
        s.Answers t h (rspOf h .ok ++ report) ∧ ∀ z, v.session = some z →
          Tab.get 0 t.eth.cnt 5 = satAdd (Tab.get 0 s.eth.cnt 5) z.unacked.length) ∧
      (ackt < 4 ∨ 1000 < ackt → ∃ t, exec (.hello h x.id ackt) s = .next t ∧ s.Replies t h (rspOf h .unsupported)) ∧
      ∀ id, id ≠ x.id → exec (.hello h id ackt) s = .next s) ∧
    (s.Asks h (bareForm 0x0C false) → ∃ t, exec (.query h) s = .next t ∧
      ∃ results, s.Replies t h (rspOf h .ok ++ results) ∧
      results.take 2 = leBytes 1 v.st.code ++ leBytes 1 v.lastStatus.code ∧ results.length = 28) ∧
    (∀ ns, ns < 2 ^ 32 → s.Asks h (budgetForm ns false) → ∃ t, exec (.setWakeBudget h ns false) s = .next t ∧
      kept t { v with budget := BitVec.ofNat 32 ns } ∧ s.Answers t h (rspOf h .ok)) ∧
    (∀ ns, ns < 2 ^ 32 → s.Asks h (budgetForm ns true) →
      (h.tenant = 0 → ∃ t, exec (.setWakeBudget h ns true) s = .next t ∧
        t.power = { s.power with budgetPkg := BitVec.ofNat 32 ns } ∧ s.Answers t h (rspOf h .ok)) ∧
      (h.tenant ≠ 0 → ∃ t, exec (.setWakeBudget h ns true) s = .next t ∧ s.Replies t h (rspOf h .auth))) ∧
    (∀ nonce : List Byte, nonce.length = 32 → s.Asks h (attestForm nonce) → ∃ t, exec (.attest h nonce) s = .next t ∧
      kept t v ∧ s.Answers t h (rspOf h .ok ++ (s.report h.tenant nonce ++
        Config.rsaSign s.part.serial.toNat (Config.sha384 (s.report h.tenant nonce))))) ∧
    (∀ (nonce bs : List Byte), s.front h 0x0F = some bs → (bs.drop 8).take 32 = nonce →
      (attestForm nonce).spelled h.tag bs = false →
      ∃ t, exec (.attest h nonce) s = .next t ∧ s.Replies t h (rspOf h .unsupported)) ∧
    (∀ bs, s.front h 0x0C = some bs → (bareForm 0x0C false).spelled h.tag bs = false →
      ∃ t, exec (.query h) s = .next t ∧ s.Replies t h (rspOf h .unsupported)) ∧
    (s.front h 0x0C = none → exec (.query h) s = .next s) ∧
    (s.front h 0x0F = none → ∀ nonce, exec (.attest h nonce) s = .next s) ∧
    (∀ a : OpenArgs, (s.tenant a.tenant).xfer = none → (s.tenant a.tenant).stopping = none → s.Asks h (openForm a) →
      let u := s.tenant a.tenant
      let replies := fun (payload : List Byte) => ∃ t, exec (.openTenant h a) s = .next t ∧ s.Replies t h payload
      (openLegal a = false → replies (rspOf h .unsupported)) ∧
      (openLegal a = true → h.tenant ≠ 0 → replies (rspOf h .auth)) ∧
      (openLegal a = true → h.tenant = 0 → a.keyonly = false → u.st = .bound ∨ u.st = .armed ∨ u.st = .running ∨ u.st = .halted →
        replies (rspOf h .state)) ∧
      (openLegal a = true → h.tenant = 0 → a.keyonly = false → u.st = .closed →
        (∀ st, s.judgeEntries a.tenant (a.apertures.map ApEntry.aperture) = st → st ≠ .ok → replies (rspOf h st)) ∧
        (s.judgeEntries a.tenant (a.apertures.map ApEntry.aperture) = .ok → ∃ t, exec (.openTenant h a) s = .next t ∧
          t = { s with tenants := t.tenants } ∧ (t.tenant a.tenant).st = .opened ∧
          (t.tenant a.tenant).keys = [(a.keyid, a.key)] ∧ (t.tenant a.tenant).keyid = a.keyid ∧
          (t.tenant a.tenant).apertures = a.apertures.map ApEntry.aperture ∧
          (t.tenant a.tenant).grant = { flags := a.flags, barriers := a.barriers, lwin := a.lwin, dwin := a.dwin } ∧
          (∀ m, m ≠ 0 → m ≠ a.tenant → t.tenant m = s.tenant m) ∧ s.Answers t h (rspOf h .ok))) ∧
      (openLegal a = true → h.tenant = 0 → a.keyonly = true → a.tenant = 0 → replies (rspOf h .bounds)) ∧
      (openLegal a = true → h.tenant = 0 → a.keyonly = true → a.tenant ≠ 0 → u.st ≠ .closed → a.keyid ≠ u.keyid →
        ∃ t, exec (.openTenant h a) s = .next t ∧ s.Answers t h (rspOf h .ok) ∧ t.tenant a.tenant =
          { u with keys := (u.keys.filter fun k => k.1 ≠ a.keyid) ++ [(a.keyid, a.key)], keyid := a.keyid }))) ∧
  (∀ (h : CmdHead) (tenant : Nat) (s : State), s.Takes h true → (s.tenant tenant).xfer = none →
    (s.tenant tenant).stopping = none → tenant < 256 → s.Asks h (closeForm tenant) →
    let u := s.tenant tenant
    let replies := fun (payload : List Byte) => ∃ t, exec (.close h tenant) s = .next t ∧ s.Replies t h payload
    (h.tenant ≠ 0 → replies (rspOf h .auth)) ∧
    (h.tenant = 0 → u.st = .closed ∨ u.st = .running → replies (rspOf h .state)) ∧
    (h.tenant = 0 → tenant = 0 → u.st ≠ .running → replies (rspOf h .bounds)) ∧
    (h.tenant = 0 → tenant ≠ 0 → u.st ≠ .closed → u.st ≠ .running → s.wipeReady tenant = false →
      exec (.close h tenant) s = .next s) ∧
    (h.tenant = 0 → tenant ≠ 0 → u.st ≠ .closed → u.st ≠ .running → s.wipeReady tenant = true →
      ∃ t, exec (.close h tenant) s = .next t ∧
      t.tenant tenant = Tenant.init ∧ s.Answers t h (rspOf h .ok) ∧
      (∀ m, m ≠ 0 → m ≠ tenant → t.tenant m = s.tenant m) ∧
      (∀ d p, (t.cluster d p).occupant ≠ some tenant) ∧
      ∀ x ∈ u.apertures, ∀ p j, x.valid = true → s.physOf x.die x.cluster = some p → x.lo ≤ j → j < x.hi →
        Tab.get 0 (t.cluster x.die p).spad j = 0)) ∧
  (∀ (h : CmdHead) (s : State) (c : Instr), s.power.st = .off ∨ (s.tenant h.tenant).st = .closed →
    c ∈ [.query h, .arm h, .hello h 1 8, .stop h 0 0, .setPowerLimit h 0, .epoch h 0, .close h 1, .attest h []] →
    exec c s = .next s) ∧
  (∀ (h : CmdHead) (s : State), s.power.st = .poised ∨ s.power.st = .retained → (s.tenant h.tenant).st ≠ .closed →
    (s.tenant h.tenant).xfer = none → (s.tenant h.tenant).stopping = none → s.Asks h (bareForm 0x09 true) →
    exec (.arm h) s =
      .next { s with power := { s.power with wakes := h.tenant :: s.power.wakes.filter (· ≠ h.tenant) } })

/-- R57: the lead of a launch. A LAUNCH_AT of an Armed tenant is LATE, and does nothing else, where T lies at or before the
package's sidereal time plus the exit time of its power state plus 1,205 ns, and begins a run only where T lies after it. A
package that has to wake begins its exit to Active at T less that time, and not before. A Retained package needs 46,205
ns, a Poised one 3,205 ns. -/
def Obligations.LaunchLead : Prop :=
  (∀ (h : CmdHead) (T : DWord) (s : State) (b : Binding), s.Takes h false → s.Asks h (launchForm T) →
    let v := s.tenant h.tenant
    let sum := s.clock.sid + nsUnits (s.power.st.exitNs + 1205)
    let late : Prop := T = sum ∨ 2 ^ 63 ≤ (T - sum).toNat
    v.st = .armed → v.binding = some b →
    (s.unlocked b = false → late → ∃ t, exec (.launchAt h T) s = .next t ∧ s.Replies t h (rspOf h .late)) ∧
    (s.unlocked b = false → ¬late → s.launchFits h.tenant b T = true → ∃ t, exec (.launchAt h T) s = .next t ∧
      s.OnlyTenant t h.tenant ∧ s.Answers t h (rspOf h .ok) ∧ (t.tenant h.tenant).st = .running ∧
      (t.tenant h.tenant).run = some (Run.start T)) ∧
    (∀ t, exec (.launchAt h T) s = .next t → (t.tenant h.tenant).st = .running → ¬late)) ∧
  (∀ (s : State) (tenant : Nat) (r : Run), s.power.st ≠ .off → ¬(s.power.st = .active ∧ s.power.moving = false) →
    ¬(s.power.moving = true ∧ s.power.target = .active) → (s.tenant tenant).st = .running →
    (s.tenant tenant).run = some r → r.phase = .waitLaunch →
    let wake := r.launch - nsUnits (s.power.st.exitNs + 1205)
    ((s.clock.sid - wake).toNat < 2 ^ 63 → exec (.launchWakeStart tenant) s = .next { s with
      power := { s.power with moving := true, target := .active, moveStart := s.clock.sid, wakes := [] } }) ∧
    (2 ^ 63 ≤ (s.clock.sid - wake).toNat → exec (.launchWakeStart tenant) s = .next s)) ∧
  (PState.exitNs .active + 1205 = 1205 ∧ PState.exitNs .poised + 1205 = 3205 ∧ PState.exitNs .retained + 1205 = 46205)

/-- R57, R58, R166, R167, R181, R186, R193, R299, R306 to R308, R316, R329, R336: the commands of plates, each in the states
R302 gives it. LOAD_PLATE keeps a verified image and releases the old binding; a dark slice answers DARK, an uncorrectable word
FAULT, and it waits for an idle read port; BIND places the plate or names why not; ARM wants every declared slice ON; LAUNCH_AT
begins a run at a time that can still be met; STOP ends it now or after an exposure; PATCH keeps its values for their
exposure. A refusal changes nothing. That the range is read on one beat, the order FAULT, LATE, BOUNDS of LAUNCH_AT and the
beat of STOP are the model's reading (notes/assumptions/108.md, 73.md, 9.md). -/
def Obligations.PlateCommands : Prop :=
  (∀ (h : CmdHead) (apt off len : Nat) (s : State), s.Takes h true → s.Asks h (plateForm apt off len) →
    let v := s.tenant h.tenant
    let frame := fun (t : State) => (∀ m, m ≠ h.tenant → t.tenant m = s.tenant m) ∧
      ∀ d q, (t.cluster d q).spad = (s.cluster d q).spad ∧ (t.cluster d q).dsram = (s.cluster d q).dsram
    let answers := fun (t : State) (payload : List Byte) => s.Answers t h payload ∧ frame t ∧ t.tenant h.tenant =
      { v with session := (t.tenant h.tenant).session, opening := (t.tenant h.tenant).opening }
    apt < 256 → off < 2 ^ 32 → 1 ≤ len → len ≤ 67108864 →
    (v.st = .bound ∨ v.st = .armed ∨ v.st = .running →
      ∃ t, exec (.loadPlate h apt off len) s = .next t ∧ s.Replies t h (rspOf h .state)) ∧
    (v.st = .opened ∨ v.st = .loaded ∨ v.st = .halted →
      (v.range apt off len = none →
        ∃ t, exec (.loadPlate h apt off len) s = .next t ∧ s.Replies t h (rspOf h .bounds)) ∧
      ∀ a p, v.range apt off len = some a → s.physOf a.die a.cluster = some p →
        let c := s.cluster a.die p
        let bs := s.loaderRead a off len
        let why := s.loadReason h.tenant bs
        let dark := (c.slice a.slice).darkFor 40 (s.regionOf a.die p).beat
        let idle := s.portIdle a.die p a.slice false
        (dark = true → ∃ t, exec (.loadPlate h apt off len) s = .next t ∧ answers t (rspOf h .dark)) ∧
        (dark = false → idle = false → exec (.loadPlate h apt off len) s = .next s) ∧
        (dark = false → idle = true → c.uesIn (a.lo + off) len ≠ [] →
          ∃ t, exec (.loadPlate h apt off len) s = .next t ∧ answers t (rspOf h .fault)) ∧
        (dark = false → idle = true → c.uesIn (a.lo + off) len = [] → why ≠ 0 →
          ∃ t, exec (.loadPlate h apt off len) s = .next t ∧ answers t (rspOf h .verify ++ leBytes 2 why)) ∧
        (dark = false → idle = true → c.uesIn (a.lo + off) len = [] → why = 0 →
          ∃ t, exec (.loadPlate h apt off len) s = .next t ∧ (t.tenant h.tenant).st = .loaded ∧
            (t.tenant h.tenant).plate = some { image := bs, digest := plateDigest bs } ∧
            (t.tenant h.tenant).binding = none ∧ frame t ∧
            s.Answers t h (rspOf h .ok ++ (leBytes 2 0 ++ leBytes 4 (plateDigest bs).toNat))))) ∧
  (∀ (h : CmdHead) (s : State), s.Takes h true →
    let v := s.tenant h.tenant
    (∀ clusters packages peers, bindLegal clusters packages = true → s.Asks h (bindForm clusters packages) →
      (v.st ≠ .loaded → ∃ t, exec (.bind h clusters packages peers) s = .next t ∧ s.Replies t h (rspOf h .state)) ∧
      (∀ p, v.st = .loaded → v.plate = some p →
        let j : Job := { tenant := h.tenant, bs := p.image, entries := clusters, packages := packages, peers := peers }
        (∀ st why, s.place j p.digest = .error (st, why) →
          ∃ t, exec (.bind h clusters packages peers) s = .next t ∧ s.Replies t h (rspOf h st ++ leBytes 2 why)) ∧
        (∀ s', s.place j p.digest = .ok s' → ∃ t, exec (.bind h clusters packages peers) s = .next t ∧
          (t.tenant h.tenant).st = .bound ∧ (t.tenant h.tenant).staged = [] ∧
          (t.tenant h.tenant).binding = (s'.tenant h.tenant).binding ∧ (t.tenant h.tenant).binding ≠ none ∧
          t.clusters = s'.clusters ∧ t.routers = s'.routers ∧ t.barriers = s'.barriers ∧
          s.Answers t h (rspOf h .ok ++ leBytes 2 0)))) ∧
    (s.Asks h (bareForm 0x09 true) →
      (v.st ≠ .bound → v.st ≠ .halted → ∃ t, exec (.arm h) s = .next t ∧ s.Replies t h (rspOf h .state)) ∧
      (∀ b, v.st = .bound ∨ v.st = .halted → v.binding = some b →
        (s.slicesOn b = false → ∃ t, exec (.arm h) s = .next t ∧ s.Replies t h (rspOf h .dark)) ∧
        (s.slicesOn b = true → ∃ t, exec (.arm h) s = .next t ∧ s.Answers t h (rspOf h .ok) ∧
          t = { s with tenants := t.tenants, power := { s.power with idleSince := s.clock.sid } } ∧
          t.tenant h.tenant = { v with st := .armed, session := (t.tenant h.tenant).session,
                                       opening := (t.tenant h.tenant).opening } ∧
          ∀ m, m ≠ h.tenant → t.tenant m = s.tenant m)))) ∧
  (∀ (h : CmdHead) (s : State), s.Takes h false →
    let v := s.tenant h.tenant
    let became := fun (t : State) (v' : Tenant) => s.OnlyTenant t h.tenant ∧ t.tenant h.tenant =
        { v' with session := (t.tenant h.tenant).session, opening := (t.tenant h.tenant).opening } ∧
      s.Answers t h (rspOf h .ok)
    (∀ T, s.Asks h (launchForm T) →
      (v.st ≠ .armed → ∃ t, exec (.launchAt h T) s = .next t ∧ s.Replies t h (rspOf h .state)) ∧
      ∀ b, v.st = .armed → v.binding = some b →
        let inTime := laterThan T (s.clock.sid + nsUnits (s.power.st.exitNs + 1205))
        (s.unlocked b = true → ∃ t, exec (.launchAt h T) s = .next t ∧ s.Replies t h (rspOf h .fault)) ∧
        (s.unlocked b = false → inTime = false → ∃ t, exec (.launchAt h T) s = .next t ∧ s.Replies t h (rspOf h .late)) ∧
        (s.unlocked b = false → inTime = true → s.launchFits h.tenant b T = false →
          ∃ t, exec (.launchAt h T) s = .next t ∧ s.Replies t h (rspOf h .bounds)) ∧
        (s.unlocked b = false → inTime = true → s.launchFits h.tenant b T = true →
          ∃ t, exec (.launchAt h T) s = .next t ∧ became t { v with st := .running, run := some (Run.start T) })) ∧
    (∀ m x, s.Asks h (stopForm m x) →
      (1 < m → ∃ t, exec (.stop h m x) s = .next t ∧ s.Replies t h (rspOf h .unsupported)) ∧
      (m ≤ 1 → x < 2 ^ 32 → v.st ≠ .armed → v.st ≠ .running →
        ∃ t, exec (.stop h m x) s = .next t ∧ s.Replies t h (rspOf h .state)) ∧
      (m ≤ 1 → x < 2 ^ 32 → v.st = .armed → ∃ t, exec (.stop h m x) s = .next t ∧ became t { v with st := .bound }) ∧
      ∀ r b, x < 2 ^ 32 → v.st = .running → v.run = some r → v.binding = some b →
        (m = 1 → x + 1 < b.exps → ∃ t, exec (.stop h m x) s = .next t ∧
          became t { v with run := some ({ r with stopAfter := some (min x (r.stopAfter.getD x)) }) }) ∧
        (m = 1 → b.exps ≤ x + 1 → ∃ t, exec (.stop h m x) s = .next t ∧ s.OnlyTenant t h.tenant ∧
          t.tenant h.tenant = { v with stopping := some h }) ∧
        (m = 0 → r.halting = none → s.lastIssued h.tenant b = false → ∃ t, exec (.stop h m x) s = .next t ∧
          t.HaltedBy h.tenant (s.beatsOf h.tenant) ∧ ((t.tenant h.tenant).st = .halted →
            (t.tenant h.tenant).lastStatus = .ok ∧ (t.tenant h.tenant).lastStopped = true))) ∧
    (∀ x es, x < 2 ^ 32 → 1 ≤ es.length → es.length ≤ 512 → (∀ e ∈ es, e.cl < 256 ∧ e.reg < 64) →
      s.Asks h (patchForm x es) →
      (v.st = .opened ∨ v.st = .loaded → ∃ t, exec (.patch h x es) s = .next t ∧ s.Replies t h (rspOf h .state)) ∧
      (∀ b, v.binding = some b → v.st = .bound ∨ v.st = .armed ∨ v.st = .running ∨ v.st = .halted →
        ((∃ e ∈ es, b.place e.cl = none) → ∃ t, exec (.patch h x es) s = .next t ∧ s.Replies t h (rspOf h .bounds)) ∧
        ((∀ e ∈ es, b.place e.cl ≠ none) →
          (∀ r, v.st = .running → v.run = some r → x ≤ r.arrived →
            ∃ t, exec (.patch h x es) s = .next t ∧ s.Replies t h (rspOf h .late)) ∧
          (v.st ≠ .running ∨ (∃ r, v.run = some r ∧ r.arrived < x) →
            ∃ t, exec (.patch h x es) s = .next t ∧ became t { v with staged := v.staged ++ [(x, es)] })))))

/-- R191, R209, R256, R291, R303, R307, R313, R317, R373, R375, R376: the operator's commands. Each answers AUTH to another
tenant. Limits and the deepest state are kept; the order to Dark is BUSY while a tenant is Armed or Running and else
takes the package there, its memories lost and its links down; a slice's target is set unless a plate that needs it
declares it, a tenant setting ON in clusters it holds alone; a topology record or schedule in force is replaced by one that is
well formed; EPOCH flips the dies named. The layouts of the records and what holding a cluster is are left open
(notes/assumptions/3.md, 71.md), and the reason of a record refused and the flip beat are the model's reading
(notes/assumptions/121.md, 17.md). -/
def Obligations.OperatorCommands : Prop :=
  (∀ (h : CmdHead) (s : State) (w n k die cl sl apt off len dies : Nat), s.Takes h true → h.tenant ≠ 0 → w < 65536 → n ≤ 3 →
    k < 2 → die < 2 → cl < 32 → sl < 4 → topologyLegal apt off len = true → dies ≤ 3 →
    let refused := fun (t : State) => s.Replies t h (rspOf h .auth)
    (s.Asks h (limitForm w) → ∃ t, exec (.setPowerLimit h w) s = .next t ∧ refused t) ∧
    (s.Asks h (stateForm n) → ∃ t, exec (.setPowerState h n) s = .next t ∧ refused t) ∧
    (s.Asks h (sliceForm k die cl sl) → ∃ t, exec (.setPowerSlice h k die cl sl) s = .next t ∧ refused t) ∧
    (s.Asks h (topologyForm 0 apt off len) → ∃ t, exec (.topologyBoard h apt off len) s = .next t ∧ refused t) ∧
    (s.Asks h (topologyForm 1 apt off len) → ∃ t, exec (.topologySystem h apt off len) s = .next t ∧ refused t) ∧
    (s.Asks h (topologyForm 2 apt off len) → ∃ t, exec (.topologySchedule h apt off len) s = .next t ∧ refused t) ∧
    (s.Asks h (epochForm dies) → ∃ t, exec (.epoch h dies) s = .next t ∧ refused t)) ∧
  (∀ (h : CmdHead) (s : State), s.Takes h false → h.tenant = 0 →
    (∀ w, w < 65536 → s.Asks h (limitForm w) → ∃ t, exec (.setPowerLimit h w) s = .next t ∧
      t.power = { s.power with limit := w } ∧
      t = { s with power := t.power, tenants := t.tenants } ∧ s.Answers t h (rspOf h .ok)) ∧
    (∀ n, s.Asks h (stateForm n) →
      (n ≤ 2 → s.power.st ≠ .dark → ∃ t, exec (.setPowerState h n) s = .next t ∧
        t.power = { s.power with deepest := n } ∧ t = { s with power := t.power, tenants := t.tenants } ∧
        s.Answers t h (rspOf h .ok)) ∧
      (n ≤ 2 → s.power.st = .dark → ∃ t, exec (.setPowerState h n) s = .next t ∧ t.power.deepest = n ∧
        0 ∈ t.power.wakes ∧ s.Answers t h (rspOf h .ok)) ∧
      (n = 3 → s.anyArmed = true → ∃ t, exec (.setPowerState h n) s = .next t ∧ s.Replies t h (rspOf h .busy)) ∧
      (n = 3 → s.anyArmed = false → s.power.st ≠ .dark → ∃ t, exec (.setPowerState h n) s = .next t ∧ t.power.st = .dark ∧
        (∀ d p, (t.cluster d p).spad = [] ∧ (t.cluster d p).dsram = [] ∧ (t.cluster d p).flags = []) ∧
        (∀ d l, (t.link d l).st = .down ∧ (t.link d l).en = (s.link d l).en) ∧
        (∀ u, (s.tenant u).st = .bound ∨ (s.tenant u).st = .halted →
          (t.tenant u).st = .loaded ∧ (t.tenant u).binding = none) ∧
        s.Answers t h (rspOf h .ok)))) ∧
  (∀ (h : CmdHead) (s : State), s.Takes h true →
    (∀ k die cl n t', k ≤ 2 → die < 2 → cl < 32 → n < 4 → h.tenant = 0 ∨ k = 2 → SliceTarget.ofCode k = some t' →
      s.Asks h (sliceForm k die cl n) →
      (s.physOf die cl = none → ∃ t, exec (.setPowerSlice h k die cl n) s = .next t ∧ s.Replies t h (rspOf h .bounds)) ∧
      (h.tenant ≠ 0 → (s.tenant h.tenant).holdsCluster die cl = false →
        ∃ t, exec (.setPowerSlice h k die cl n) s = .next t ∧ s.Replies t h (rspOf h .bounds)) ∧
      (∀ p, s.physOf die cl = some p → h.tenant = 0 ∨ (s.tenant h.tenant).holdsCluster die cl = true →
        (k ≠ 2 → s.declared die p n = true →
          ∃ t, exec (.setPowerSlice h k die cl n) s = .next t ∧ s.Replies t h (rspOf h .busy)) ∧
        (k = 2 ∨ s.declared die p n = false → ∃ t, exec (.setPowerSlice h k die cl n) s = .next t ∧
          (t.cluster die p).slice n = ((s.cluster die p).slice n).setTarget t' (s.regionOf die p).beat ∧
          (∀ d q, clKey d q ≠ clKey die p → t.cluster d q = s.cluster d q) ∧ s.Answers t h (rspOf h .ok)))) ∧
    (h.tenant = 0 → ∀ apt off len, topologyLegal apt off len = true →
      let v := s.tenant 0
      let verify := rspOf h .verify ++ leBytes 2 0x0302
      let frame := fun (t : State) => ∀ d q, (t.cluster d q).spad = (s.cluster d q).spad ∧
        (t.cluster d q).dsram = (s.cluster d q).dsram ∧ (t.cluster d q).flags = (s.cluster d q).flags
      let refused := fun (t : State) (payload : List Byte) => s.Answers t h payload ∧ t.board = s.board ∧ t.sys = s.sys ∧
        t.nextSched = s.nextSched ∧ frame t ∧ ∀ u, u ≠ 0 → t.tenant u = s.tenant u
      (v.range apt off len = none →
        (s.Asks h (topologyForm 0 apt off len) →
          ∃ t, exec (.topologyBoard h apt off len) s = .next t ∧ s.Replies t h (rspOf h .bounds)) ∧
        (s.Asks h (topologyForm 1 apt off len) →
          ∃ t, exec (.topologySystem h apt off len) s = .next t ∧ s.Replies t h (rspOf h .bounds)) ∧
        (s.Asks h (topologyForm 2 apt off len) →
          ∃ t, exec (.topologySchedule h apt off len) s = .next t ∧ s.Replies t h (rspOf h .bounds))) ∧
      (∀ a p, v.range apt off len = some a → s.physOf a.die a.cluster = some p →
        ((s.cluster a.die p).slice a.slice).darkFor 40 (s.regionOf a.die p).beat = true → s.Asks h (topologyForm 0 apt off len) →
        ∃ t, exec (.topologyBoard h apt off len) s = .next t ∧ refused t (rspOf h .dark)) ∧
      (∀ a p, v.range apt off len = some a → s.physOf a.die a.cluster = some p →
        ((s.cluster a.die p).slice a.slice).darkFor 40 (s.regionOf a.die p).beat = false →
        s.portIdle a.die p a.slice false = true → (s.cluster a.die p).uesIn (a.lo + off) len = [] →
        let bs := s.loaderRead a off len
        let ok := rspOf h .ok ++ leBytes 4 (Config.sha384 bs).toNat
        (s.Asks h (topologyForm 0 apt off len) →
          (Config.boardRecord bs = none → ∃ t, exec (.topologyBoard h apt off len) s = .next t ∧ refused t verify) ∧
          (∀ far pins io, Config.boardRecord bs = some (far, pins, io) → boardRecordOk far = false →
            ∃ t, exec (.topologyBoard h apt off len) s = .next t ∧ refused t verify) ∧
          (∀ far pins io, Config.boardRecord bs = some (far, pins, io) → boardRecordOk far = true →
            ∃ t, exec (.topologyBoard h apt off len) s = .next t ∧ s.Answers t h ok ∧
              t.board = some { far := far, pins := pins, slots := (far.map fun e => e.1.1).eraseDups,
                               digest := Config.sha384 bs } ∧
              Tab.get 0 t.fw.meas 6 = Config.sha384 bs ∧ frame t)) ∧
        (s.Asks h (topologyForm 1 apt off len) →
          (Config.systemRecord bs = none → ∃ t, exec (.topologySystem h apt off len) s = .next t ∧ refused t verify) ∧
          (∀ board ackt packages, Config.systemRecord bs = some (board, ackt, packages) →
            ∃ t, exec (.topologySystem h apt off len) s = .next t ∧ s.Answers t h ok ∧
              t.sys = some { board := board, ackt := ackt, packages := packages, digest := Config.sha384 bs } ∧
              Tab.get 0 t.fw.meas 7 = Config.sha384 bs ∧ frame t)) ∧
        (s.Asks h (topologyForm 2 apt off len) →
          (parseSchedule bs = none → ∃ t, exec (.topologySchedule h apt off len) s = .next t ∧ refused t verify) ∧
          (∀ x, parseSchedule bs = some x →
            (s.anyArmed = true ∨ s.leftOut x = true →
              ∃ t, exec (.topologySchedule h apt off len) s = .next t ∧ refused t (rspOf h .busy)) ∧
            (s.anyArmed = false → s.leftOut x = false → reached x.s0 (s.clock.sid + nsUnits 1000000) = false →
              ∃ t, exec (.topologySchedule h apt off len) s = .next t ∧ refused t (rspOf h .late)) ∧
            (s.anyArmed = false → s.leftOut x = false → reached x.s0 (s.clock.sid + nsUnits 1000000) = true →
              ∃ t, exec (.topologySchedule h apt off len) s = .next t ∧ s.Answers t h ok ∧ t.nextSched = some x ∧
                t.sched = s.sched ∧ frame t))))) ∧
    (h.tenant = 0 → ∀ dies, dies ≤ 3 → s.Asks h (epochForm dies) →
      ((∃ d, d < 2 ∧ bitSet dies d = true ∧ s.flipping d = true) →
        ∃ t, exec (.epoch h dies) s = .next t ∧ s.Replies t h (rspOf h .busy)) ∧
      ((∀ d, d < 2 → bitSet dies d = true → s.flipping d = false) → ∃ t, exec (.epoch h dies) s = .next t ∧
        s.Answers t h (rspOf h .ok) ∧ t.clusters = s.clusters ∧
        ∀ d, d < 2 → t.dieOf d =
          if bitSet dies d then { s.dieOf d with flipAt := some (s.topBeat + 48) } else s.dieOf d)))
end

