-- ==== Sys2Proof/Laws/Frames.lean ====
section
/-!
SUPPORT. Bytes and numbers, and what the port makes of a frame with a right FCS.
-/

open Sys2Proof Sys2Proof.Machine

namespace Sys2Proof.Machine

@[simp] theorem leBytes_length (n v : Nat) : (leBytes n v).length = n := by
  induction n generalizing v with
  | zero => rfl
  | succ n ih => simp [leBytes, ih]

theorem leNat_leBytes (n v : Nat) : leNat (leBytes n v) = v % 256 ^ n := by
  induction n generalizing v with
  | zero => simp [leBytes, leNat, Nat.mod_one]
  | succ n ih =>
    have h := Nat.mod_mul (x := v) (a := 256) (b := 256 ^ n)
    have small : v % 256 % 2 ^ 8 = v % 256 := Nat.mod_eq_of_lt (Nat.mod_lt _ (by decide))
    rw [leBytes, leNat, ih, BitVec.toNat_ofNat, small, Nat.pow_succ', h]

@[simp] theorem leNat_wordBytes (w : Word) : leNat (wordBytes w) = w.toNat := by
  rw [wordBytes, leNat_leBytes]
  exact Nat.mod_eq_of_lt w.isLt

/-- A frame taken apart without its FCS. -/
def plainFrame (kept : List Byte) : EthFrame :=
  let tagged := netField kept 12 2 = 0x8100
  let at_ := if tagged then 16 else 12
  { dst := kept.take 6, src := (kept.drop 6).take 6, tci := if tagged then some (netField kept 14 2) else none,
    etype := netField kept at_ 2, body := kept.drop (at_ + 2) }

theorem netField_append (kept x : List Byte) (lo n : Nat) (h : lo + n ≤ kept.length) :
    netField (kept ++ x) lo n = netField kept lo n := by
  simp only [netField]
  rw [List.drop_append_of_le_length (by omega), List.take_append_of_le_length (by simp; omega)]

/-- A frame of a size and an EtherType of R270 with its FCS behind it is taken. -/
theorem openFrame_sealed (kept : List Byte) (lo : 60 ≤ kept.length) (hi : kept.length ≤ 9212)
    (e : (plainFrame kept).etype ∈ [0x0800, 0x0806, 0x86DD, 0x88F7]) :
    openFrame (kept ++ wordBytes (fcs kept)) = some (plainFrame kept) := by
  have len : (wordBytes (fcs kept)).length = 4 := leBytes_length 4 _
  have cut : (kept ++ wordBytes (fcs kept)).length - 4 = kept.length := by simp [len]
  have back : (kept ++ wordBytes (fcs kept)).take kept.length = kept := by simp
  have rest : (kept ++ wordBytes (fcs kept)).drop kept.length = wordBytes (fcs kept) := by simp
  have addrs : (kept ++ wordBytes (fcs kept)).take 6 = kept.take 6 := List.take_append_of_le_length (by omega)
  have srcs : ((kept ++ wordBytes (fcs kept)).drop 6).take 6 = (kept.drop 6).take 6 := by
    rw [List.drop_append_of_le_length (by omega), List.take_append_of_le_length (by simp; omega)]
  have at12 := netField_append kept (wordBytes (fcs kept)) 12 2 (by omega)
  have at14 := netField_append kept (wordBytes (fcs kept)) 14 2 (by omega)
  have at16 := netField_append kept (wordBytes (fcs kept)) 16 2 (by omega)
  have type : netField (kept ++ wordBytes (fcs kept)) (if netField kept 12 2 = 0x8100 then 16 else 12) 2 =
      netField kept (if netField kept 12 2 = 0x8100 then 16 else 12) 2 := by split <;> assumption
  simp only [openFrame, cut, back, rest, addrs, srcs, at12, at14, type, leNat_wordBytes]
  rw [if_pos]
  · rfl
  · simp only [plainFrame] at e
    simp only [Bool.and_eq_true, decide_eq_true_eq, List.length_append, len, List.contains_iff_mem]
    exact ⟨⟨⟨by omega, by omega⟩, trivial⟩, e⟩

/-- A frame that carries a UDP datagram is that datagram. -/
theorem heard_udp (s : State) (x : PortFrame) (f : EthFrame) (p : IpPacket) (d : Datagram) (h : openFrame x.bytes = some f)
    (e : f.etype = 0x0800 ∨ f.etype = 0x86DD) (i : openIp f = some p) (u : p.proto = 17) (o : openUdp x.half p = some d) :
    s.heard x = .datagram d := by
  rcases e with e | e <;> simp [State.heard, h, e, i, u, o]

end Sys2Proof.Machine
end

