-- ==== Sys2Proof/Laws/PerInstr.lean ====
section
/-!
SUPPORT. One lemma per command: a well-formed slot or line names a place that exists (R14, R149).
-/

namespace Sys2Proof.Laws.Lawful

set_option Elab.async false

/-- The place a well-formed slot or line issues at is one of the two dies, 24 physical clusters and 16 contexts. -/
def Statement (i : Instr) : Prop :=
  i.wellFormed = true → ∀ a, i.site = some a → a.die < 2 ∧ a.phys < 24 ∧ a.ctx < 16

/-- What the check of a place says. -/
theorem place_of_wf (a : Issue) (h : a.wf = true) : a.die < 2 ∧ a.phys < 24 ∧ a.ctx < 16 := by
  simpa [Issue.wf, and_assoc] using h

/-- A command that issues at no place. -/
theorem of_no_site (i : Instr) (h : i.site = none) : Statement i := fun _ a e => by rw [h] at e; cases e

/-- A command whose check takes in its place's. -/
theorem of_site (i : Instr) (a : Issue) (h : i.site = some a) (w : i.wellFormed = true → a.wf = true) : Statement i :=
  fun hw b e => by rw [h] at e; cases e; exact place_of_wf a (w hw)

theorem hello (h : CmdHead) (session ackt : Nat) : Statement (.hello h session ackt) := of_no_site _ rfl
theorem openTenant (h : CmdHead) (a : OpenArgs) : Statement (.openTenant h a) := of_no_site _ rfl
theorem close (h : CmdHead) (tenant : Nat) : Statement (.close h tenant) := of_no_site _ rfl
theorem write (h : CmdHead) (x : XferArgs) (segs : List (List Byte)) : Statement (.write h x segs) := of_no_site _ rfl
theorem read (h : CmdHead) (x : XferArgs) : Statement (.read h x) := of_no_site _ rfl
theorem loadPlate (h : CmdHead) (apt offset len : Nat) : Statement (.loadPlate h apt offset len) := of_no_site _ rfl
theorem bind (h : CmdHead) (clusters packages : List (Nat × Nat)) (peers : List PeerPlate) : Statement (.bind h clusters packages peers) := of_no_site _ rfl
theorem patch (h : CmdHead) (x : Nat) (entries : List PatchEntry) : Statement (.patch h x entries) := of_no_site _ rfl
theorem arm (h : CmdHead) : Statement (.arm h) := of_no_site _ rfl
theorem launchAt (h : CmdHead) (time : DWord) : Statement (.launchAt h time) := of_no_site _ rfl
theorem stop (h : CmdHead) (mode x : Nat) : Statement (.stop h mode x) := of_no_site _ rfl
theorem query (h : CmdHead) : Statement (.query h) := of_no_site _ rfl
theorem setWakeBudget (h : CmdHead) (ns : Nat) (pkg : Bool) : Statement (.setWakeBudget h ns pkg) := of_no_site _ rfl
theorem setPowerLimit (h : CmdHead) (watts : Nat) : Statement (.setPowerLimit h watts) := of_no_site _ rfl
theorem setPowerState (h : CmdHead) (state : Nat) : Statement (.setPowerState h state) := of_no_site _ rfl
theorem setPowerSlice (h : CmdHead) (target die cluster slice : Nat) : Statement (.setPowerSlice h target die cluster slice) := of_no_site _ rfl
theorem attest (h : CmdHead) (nonce : List Byte) : Statement (.attest h nonce) := of_no_site _ rfl
theorem topologyBoard (h : CmdHead) (apt offset len : Nat) : Statement (.topologyBoard h apt offset len) := of_no_site _ rfl
theorem topologySystem (h : CmdHead) (apt offset len : Nat) : Statement (.topologySystem h apt offset len) := of_no_site _ rfl
theorem topologySchedule (h : CmdHead) (apt offset len : Nat) : Statement (.topologySchedule h apt offset len) := of_no_site _ rfl
theorem epoch (h : CmdHead) (dies : Nat) : Statement (.epoch h dies) := of_no_site _ rfl
theorem scalarInstruction (at_ : Issue) (pos0 pos1 : Word) : Statement (.scalarInstruction at_ pos0 pos1) := of_site _ at_ rfl id
theorem stream (at_ : Issue) (f : StreamSlot) : Statement (.stream at_ f) := of_site _ at_ rfl (fun h => by simp only [Instr.wellFormed, Bool.and_eq_true] at h; exact h.1)
theorem stationaryLoadNormal (at_ : Issue) (f : LoadSlot) : Statement (.stationaryLoadNormal at_ f) := of_site _ at_ rfl (fun h => by simp only [Instr.wellFormed, Bool.and_eq_true] at h; exact h.1)
theorem stationaryLoadTransposed (at_ : Issue) (f : LoadSlot) : Statement (.stationaryLoadTransposed at_ f) := of_site _ at_ rfl (fun h => by simp only [Instr.wellFormed, Bool.and_eq_true] at h; exact h.1)
theorem cnvSet (at_ : Issue) (f : SetSlot) : Statement (.cnvSet at_ f) := of_site _ at_ rfl (fun h => by simp only [Instr.wellFormed, Bool.and_eq_true] at h; exact h.1)
theorem tload (at_ : Issue) (f : TloadSlot) : Statement (.tload at_ f) := of_site _ at_ rfl (fun h => by simp only [Instr.wellFormed, Bool.and_eq_true] at h; exact h.1)
theorem add (at_ : Issue) (f : VecSlot) : Statement (.add at_ f) := of_site _ at_ rfl (fun h => by simp only [Instr.wellFormed, Bool.and_eq_true] at h; exact h.1)
theorem sub (at_ : Issue) (f : VecSlot) : Statement (.sub at_ f) := of_site _ at_ rfl (fun h => by simp only [Instr.wellFormed, Bool.and_eq_true] at h; exact h.1)
theorem mul (at_ : Issue) (f : VecSlot) : Statement (.mul at_ f) := of_site _ at_ rfl (fun h => by simp only [Instr.wellFormed, Bool.and_eq_true] at h; exact h.1)
theorem fma (at_ : Issue) (f : VecSlot) : Statement (.fma at_ f) := of_site _ at_ rfl (fun h => by simp only [Instr.wellFormed, Bool.and_eq_true] at h; exact h.1)
theorem max (at_ : Issue) (f : VecSlot) : Statement (.max at_ f) := of_site _ at_ rfl (fun h => by simp only [Instr.wellFormed, Bool.and_eq_true] at h; exact h.1)
theorem min (at_ : Issue) (f : VecSlot) : Statement (.min at_ f) := of_site _ at_ rfl (fun h => by simp only [Instr.wellFormed, Bool.and_eq_true] at h; exact h.1)
theorem exp (at_ : Issue) (f : VecSlot) : Statement (.exp at_ f) := of_site _ at_ rfl (fun h => by simp only [Instr.wellFormed, Bool.and_eq_true] at h; exact h.1)
theorem rcp (at_ : Issue) (f : VecSlot) : Statement (.rcp at_ f) := of_site _ at_ rfl (fun h => by simp only [Instr.wellFormed, Bool.and_eq_true] at h; exact h.1)
theorem rsq (at_ : Issue) (f : VecSlot) : Statement (.rsq at_ f) := of_site _ at_ rfl (fun h => by simp only [Instr.wellFormed, Bool.and_eq_true] at h; exact h.1)
theorem gelu (at_ : Issue) (f : VecSlot) : Statement (.gelu at_ f) := of_site _ at_ rfl (fun h => by simp only [Instr.wellFormed, Bool.and_eq_true] at h; exact h.1)
theorem silu (at_ : Issue) (f : VecSlot) : Statement (.silu at_ f) := of_site _ at_ rfl (fun h => by simp only [Instr.wellFormed, Bool.and_eq_true] at h; exact h.1)
theorem rsum (at_ : Issue) (f : VecSlot) : Statement (.rsum at_ f) := of_site _ at_ rfl (fun h => by simp only [Instr.wellFormed, Bool.and_eq_true] at h; exact h.1)
theorem rmax (at_ : Issue) (f : VecSlot) : Statement (.rmax at_ f) := of_site _ at_ rfl (fun h => by simp only [Instr.wellFormed, Bool.and_eq_true] at h; exact h.1)
theorem smxi (at_ : Issue) (f : VecSlot) : Statement (.smxi at_ f) := of_site _ at_ rfl (fun h => by simp only [Instr.wellFormed, Bool.and_eq_true] at h; exact h.1)
theorem smxs (at_ : Issue) (f : VecSlot) : Statement (.smxs at_ f) := of_site _ at_ rfl (fun h => by simp only [Instr.wellFormed, Bool.and_eq_true] at h; exact h.1)
theorem smxn (at_ : Issue) (f : VecSlot) : Statement (.smxn at_ f) := of_site _ at_ rfl (fun h => by simp only [Instr.wellFormed, Bool.and_eq_true] at h; exact h.1)
theorem rope (at_ : Issue) (f : VecSlot) : Statement (.rope at_ f) := of_site _ at_ rfl (fun h => by simp only [Instr.wellFormed, Bool.and_eq_true] at h; exact h.1)
theorem vld (at_ : Issue) (f : VmemSlot) : Statement (.vld at_ f) := of_site _ at_ rfl (fun h => by simp only [Instr.wellFormed, Bool.and_eq_true] at h; exact h.1)
theorem vst (at_ : Issue) (f : VmemSlot) : Statement (.vst at_ f) := of_site _ at_ rfl (fun h => by simp only [Instr.wellFormed, Bool.and_eq_true] at h; exact h.1)
theorem rtld (at_ : Issue) (f : VmemSlot) : Statement (.rtld at_ f) := of_site _ at_ rfl (fun h => by simp only [Instr.wellFormed, Bool.and_eq_true] at h; exact h.1)
theorem copy (at_ : Issue) (f : StoreSlot) : Statement (.copy at_ f) := of_site _ at_ rfl (fun h => by simp only [Instr.wellFormed, Bool.and_eq_true] at h; exact h.1)
theorem fill (at_ : Issue) (f : StoreSlot) : Statement (.fill at_ f) := of_site _ at_ rfl (fun h => by simp only [Instr.wellFormed, Bool.and_eq_true] at h; exact h.1)
theorem d2s (at_ : Issue) (f : StoreSlot) : Statement (.d2s at_ f) := of_site _ at_ rfl (fun h => by simp only [Instr.wellFormed, Bool.and_eq_true] at h; exact h.1)
theorem s2d (at_ : Issue) (f : StoreSlot) : Statement (.s2d at_ f) := of_site _ at_ rfl (fun h => by simp only [Instr.wellFormed, Bool.and_eq_true] at h; exact h.1)
theorem send (at_ : Issue) (f : BulkSlot) : Statement (.send at_ f) := of_site _ at_ rfl (fun h => by simp only [Instr.wellFormed, Bool.and_eq_true] at h; exact h.1)
theorem recv (at_ : Issue) (f : BulkSlot) : Statement (.recv at_ f) := of_site _ at_ rfl (fun h => by simp only [Instr.wellFormed, Bool.and_eq_true] at h; exact h.1)
theorem flagSet (at_ : Issue) (f : SyncSlot) : Statement (.flagSet at_ f) := of_site _ at_ rfl (fun h => by simp only [Instr.wellFormed, Bool.and_eq_true] at h; exact h.1)
theorem flagClr (at_ : Issue) (f : SyncSlot) : Statement (.flagClr at_ f) := of_site _ at_ rfl (fun h => by simp only [Instr.wellFormed, Bool.and_eq_true] at h; exact h.1)
theorem waits (at_ : Issue) (f : SyncSlot) : Statement (.waits at_ f) := of_site _ at_ rfl (fun h => by simp only [Instr.wellFormed, Bool.and_eq_true] at h; exact h.1)
theorem waitc (at_ : Issue) (f : SyncSlot) : Statement (.waitc at_ f) := of_site _ at_ rfl (fun h => by simp only [Instr.wellFormed, Bool.and_eq_true] at h; exact h.1)
theorem flagCnt (at_ : Issue) (f : SyncSlot) : Statement (.flagCnt at_ f) := of_site _ at_ rfl (fun h => by simp only [Instr.wellFormed, Bool.and_eq_true] at h; exact h.1)
theorem arrive (at_ : Issue) (f : SyncSlot) : Statement (.arrive at_ f) := of_site _ at_ rfl (fun h => by simp only [Instr.wellFormed, Bool.and_eq_true] at h; exact h.1)
theorem topk (at_ : Issue) (f : TopkSlot) : Statement (.topk at_ f) := of_site _ at_ rfl (fun h => by simp only [Instr.wellFormed, Bool.and_eq_true] at h; exact h.1)
theorem ixld (at_ : Issue) (f : IxldSlot) : Statement (.ixld at_ f) := of_site _ at_ rfl (fun h => by simp only [Instr.wellFormed, Bool.and_eq_true] at h; exact h.1)
theorem gather (at_ : Issue) (f : GatherSlot) : Statement (.gather at_ f) := of_site _ at_ rfl (fun h => by simp only [Instr.wellFormed, Bool.and_eq_true] at h; exact h.1)
theorem scatter (at_ : Issue) (f : ScatterSlot) : Statement (.scatter at_ f) := of_site _ at_ rfl (fun h => by simp only [Instr.wellFormed, Bool.and_eq_true] at h; exact h.1)
theorem paramSet (at_ : Issue) (f : ParamSlot) : Statement (.paramSet at_ f) := of_site _ at_ rfl (fun h => by simp only [Instr.wellFormed, Bool.and_eq_true] at h; exact h.1)
theorem paramAddi (at_ : Issue) (f : ParamSlot) : Statement (.paramAddi at_ f) := of_site _ at_ rfl (fun h => by simp only [Instr.wellFormed, Bool.and_eq_true] at h; exact h.1)
theorem mova (at_ : Issue) (f : ParamSlot) : Statement (.mova at_ f) := of_site _ at_ rfl (fun h => by simp only [Instr.wellFormed, Bool.and_eq_true] at h; exact h.1)
theorem loop (at_ : Issue) (w : LoopWord) : Statement (.loop at_ w) := of_site _ at_ rfl (fun h => by simp only [Instr.wellFormed, Bool.and_eq_true] at h; exact h.1)
theorem endProgram (at_ : Issue) : Statement (.endProgram at_) := of_site _ at_ rfl id
theorem idleLine (at_ : Issue) (rep : Nat) : Statement (.idleLine at_ rep) := of_site _ at_ rfl (fun h => by simp only [Instr.wellFormed, Bool.and_eq_true] at h; exact h.1)
theorem waitComplete (at_ : Issue) : Statement (.waitComplete at_) := of_site _ at_ rfl id
theorem openWaitComplete (at_ : Issue) : Statement (.openWaitComplete at_) := of_site _ at_ rfl id
theorem waitTimeout (at_ : Issue) : Statement (.waitTimeout at_) := of_site _ at_ rfl id
theorem remoteFlagApply (die phys : Nat) : Statement (.remoteFlagApply die phys) := of_no_site _ rfl
theorem barrierRelease (tenant barrier : Nat) : Statement (.barrierRelease tenant barrier) := of_no_site _ rfl
theorem runComplete (tenant : Nat) : Statement (.runComplete tenant) := of_no_site _ rfl
theorem launchWakeStart (tenant : Nat) : Statement (.launchWakeStart tenant) := of_no_site _ rfl
theorem gateAnnounce (tenant : Nat) : Statement (.gateAnnounce tenant) := of_no_site _ rfl
theorem gateStart (region tenant : Nat) : Statement (.gateStart region tenant) := of_no_site _ rfl
theorem exposureArrival (tenant : Nat) : Statement (.exposureArrival tenant) := of_no_site _ rfl
theorem stampReceive (tenant slot exp : Nat) (stamp : DWord) : Statement (.stampReceive tenant slot exp stamp) := of_no_site _ rfl
theorem regionBeatBegin (region : Nat) (badTag : Option Nat) : Statement (.regionBeatBegin region badTag) := of_no_site _ rfl
theorem droopStretch (region monitor slack : Nat) : Statement (.droopStretch region monitor slack) := of_no_site _ rfl
theorem governorWindow (region smin monitor : Nat) : Statement (.governorWindow region smin monitor) := of_no_site _ rfl
theorem voltageGrant (region : Nat) : Statement (.voltageGrant region) := of_no_site _ rfl
theorem rateShortfall (tenant region span : Nat) : Statement (.rateShortfall tenant region span) := of_no_site _ rfl
theorem emergencyBegin (cause : Nat) : Statement (.emergencyBegin cause) := of_no_site _ rfl
theorem emergencyDutyStep : Statement (.emergencyDutyStep) := of_no_site _ rfl
theorem thermalTrip (die sensor : Nat) : Statement (.thermalTrip die sensor) := of_no_site _ rfl
theorem railFault (rail : Nat) (noAck : Bool) : Statement (.railFault rail noAck) := of_no_site _ rfl
theorem leaderChoice (peers : List PeerRole) : Statement (.leaderChoice peers) := of_no_site _ rfl
theorem leaderTimeout (peers : List PeerRole) : Statement (.leaderTimeout peers) := of_no_site _ rfl
theorem ptpMessage (offset : PtpMessage) : Statement (.ptpMessage offset) := of_no_site _ rfl
theorem linkSignalDetect (die link : Nat) : Statement (.linkSignalDetect die link) := of_no_site _ rfl
theorem linkLock (die link : Nat) (laneSwapped : Bool) (ppm : Nat) : Statement (.linkLock die link laneSwapped ppm) := of_no_site _ rfl
theorem linkSignalTimeout (die link : Nat) : Statement (.linkSignalTimeout die link) := of_no_site _ rfl
theorem linkIdentEvaluate (die link : Nat) (r : IdentRecord) : Statement (.linkIdentEvaluate die link r) := of_no_site _ rfl
theorem linkIdentTimeout (die link : Nat) : Statement (.linkIdentTimeout die link) := of_no_site _ rfl
theorem linkLeaveUp (die link : Nat) (why : LeaveWhy) : Statement (.linkLeaveUp die link why) := of_no_site _ rfl
theorem linkRequeueTimeout (die link : Nat) : Statement (.linkRequeueTimeout die link) := of_no_site _ rfl
theorem linkFrameReceive (die link : Nat) (f : LinkFrame) : Statement (.linkFrameReceive die link f) := of_no_site _ rfl
theorem linkSchedConsume (die link : Nat) : Statement (.linkSchedConsume die link) := of_no_site _ rfl
theorem flagopReceive (die link : Nat) : Statement (.flagopReceive die link) := of_no_site _ rfl
theorem haltReceive (die link : Nat) : Statement (.haltReceive die link) := of_no_site _ rfl
theorem ephemerisSwitch (die phys : Nat) (parityError : Bool) : Statement (.ephemerisSwitch die phys parityError) := of_no_site _ rfl
theorem schedOriginCheck (die seq : Nat) (complete : Bool) (differs strayBeat : Bool) : Statement (.schedOriginCheck die seq complete differs strayBeat) := of_no_site _ rfl
theorem unschedForward (die phys lane : Nat) : Statement (.unschedForward die phys lane) := of_no_site _ rfl
theorem bnetWriteArrive (die phys : Nat) : Statement (.bnetWriteArrive die phys) := of_no_site _ rfl
theorem bnetReadArrive (die phys : Nat) : Statement (.bnetReadArrive die phys) := of_no_site _ rfl
theorem bnetRdataArrive (die src : Nat) : Statement (.bnetRdataArrive die src) := of_no_site _ rfl
theorem bnetWdoneArrive (die src : Nat) : Statement (.bnetWdoneArrive die src) := of_no_site _ rfl
theorem trailingRelease (die phys : Nat) : Statement (.trailingRelease die phys) := of_no_site _ rfl
theorem unschedSliceAccess (die phys slice : Nat) : Statement (.unschedSliceAccess die phys slice) := of_no_site _ rfl
theorem epochFlip (die : Nat) : Statement (.epochFlip die) := of_no_site _ rfl
theorem epochDrained (die : Nat) : Statement (.epochDrained die) := of_no_site _ rfl
theorem epochDrainTimeout (die : Nat) : Statement (.epochDrainTimeout die) := of_no_site _ rfl
theorem spadPwrWrite (a : Agent) (die cluster slice : Nat) (value : Word) : Statement (.spadPwrWrite a die cluster slice value) := of_no_site _ rfl
theorem drainProbeArrive (die phys slice src : Nat) : Statement (.drainProbeArrive die phys slice src) := of_no_site _ rfl
theorem sliceDrainComplete (die phys slice : Nat) : Statement (.sliceDrainComplete die phys slice) := of_no_site _ rfl
theorem sliceDrainTimeout (die phys slice : Nat) : Statement (.sliceDrainTimeout die phys slice) := of_no_site _ rfl
theorem sliceCloseDone (die phys slice : Nat) : Statement (.sliceCloseDone die phys slice) := of_no_site _ rfl
theorem sliceOpenDone (die phys slice : Nat) : Statement (.sliceOpenDone die phys slice) := of_no_site _ rfl
theorem scrubRead (die phys slice : Nat) : Statement (.scrubRead die phys slice) := of_no_site _ rfl
theorem scrubWriteback (die phys slice : Nat) : Statement (.scrubWriteback die phys slice) := of_no_site _ rfl
theorem bnetEwdataHiWrite (a : Agent) (die cluster : Nat) (value : Word) : Statement (.bnetEwdataHiWrite a die cluster value) := of_no_site _ rfl
theorem bnetRtdataWrite (a : Agent) (die cluster : Nat) (value : Word) : Statement (.bnetRtdataWrite a die cluster value) := of_no_site _ rfl
theorem seqWinWrite (a : Agent) (die cluster : Nat) (w : SeqWin) (value : Word) : Statement (.seqWinWrite a die cluster w value) := of_no_site _ rfl
theorem tenApLocWrite (a : Agent) (die : Nat) (value : Word) : Statement (.tenApLocWrite a die value) := of_no_site _ rfl
theorem tenApSizeWrite (a : Agent) (die : Nat) (value : Word) : Statement (.tenApSizeWrite a die value) := of_no_site _ rfl
theorem ethCtlModeWrite (a : Agent) (value : Word) : Statement (.ethCtlModeWrite a value) := of_no_site _ rfl
theorem clkGovWrite (a : Agent) (die : Nat) (value : Word) : Statement (.clkGovWrite a die value) := of_no_site _ rfl
theorem lnkCtlRetrain (a : Agent) (die link : Nat) : Statement (.lnkCtlRetrain a die link) := of_no_site _ rfl
theorem lnkCtlEn (a : Agent) (die link : Nat) (en : Bool) : Statement (.lnkCtlEn a die link en) := of_no_site _ rfl
theorem snetFopSet (a : Agent) (die cluster flag owner : Nat) : Statement (.snetFopSet a die cluster flag owner) := of_no_site _ rfl
theorem snetFopClr (a : Agent) (die cluster flag owner : Nat) : Statement (.snetFopClr a die cluster flag owner) := of_no_site _ rfl
theorem snetFopCnt (a : Agent) (die cluster flag owner : Nat) : Statement (.snetFopCnt a die cluster flag owner) := of_no_site _ rfl
theorem registerWrite (a : Agent) (addr len : Nat) (value : Word × List Word) : Statement (.registerWrite a addr len value) := of_no_site _ rfl
theorem readClear (a : Agent) (addr len : Nat) : Statement (.readClear a addr len) := of_no_site _ rfl
theorem timeSidLoRead (a : Agent) (die : Nat) : Statement (.timeSidLoRead a die) := of_no_site _ rfl
theorem timeTBeatLoRead (a : Agent) (die : Nat) : Statement (.timeTBeatLoRead a die) := of_no_site _ rfl
theorem mxaColsLoRead (a : Agent) (die cluster arr : Nat) : Statement (.mxaColsLoRead a die cluster arr) := of_no_site _ rfl
theorem bnetEwdataLoRead (a : Agent) (die cluster : Nat) : Statement (.bnetEwdataLoRead a die cluster) := of_no_site _ rfl
theorem bnetSflitLoRead (a : Agent) (die cluster : Nat) : Statement (.bnetSflitLoRead a die cluster) := of_no_site _ rfl
theorem lnkPserLoRead (a : Agent) (die link : Nat) : Statement (.lnkPserLoRead a die link) := of_no_site _ rfl
theorem tenObsS0LoRead (a : Agent) (die : Nat) : Statement (.tenObsS0LoRead a die) := of_no_site _ rfl
theorem pwrEnergyLoRead (a : Agent) (die : Nat) : Statement (.pwrEnergyLoRead a die) := of_no_site _ rfl
theorem kprMdataRead (a : Agent) (die : Nat) : Statement (.kprMdataRead a die) := of_no_site _ rfl
theorem fltRecRead (a : Agent) (die : Nat) : Statement (.fltRecRead a die) := of_no_site _ rfl
theorem fltTRunRead (a : Agent) (die : Nat) : Statement (.fltTRunRead a die) := of_no_site _ rfl
theorem hostDwinWrite (a : Agent) (die cluster offset : Nat) (data : List Byte) : Statement (.hostDwinWrite a die cluster offset data) := of_no_site _ rfl
theorem hostDwinRead (a : Agent) (die cluster offset len : Nat) : Statement (.hostDwinRead a die cluster offset len) := of_no_site _ rfl
theorem octPacketReceive (p : PortFrame) : Statement (.octPacketReceive p) := of_no_site _ rfl
theorem octRetransmit (tenant seq : Nat) : Statement (.octRetransmit tenant seq) := of_no_site _ rfl
theorem octWriteComplete (tenant : Nat) : Statement (.octWriteComplete tenant) := of_no_site _ rfl
theorem octReadComplete (tenant : Nat) : Statement (.octReadComplete tenant) := of_no_site _ rfl
theorem scaleoutEgress (die : Nat) : Statement (.scaleoutEgress die) := of_no_site _ rfl
theorem scaleoutReceive (tenant : Nat) (d : ScaleDesc) (data : List Byte) : Statement (.scaleoutReceive tenant d data) := of_no_site _ rfl
theorem peerHaltReceive (tenant slot board exp status : Nat) : Statement (.peerHaltReceive tenant slot board exp status) := of_no_site _ rfl
theorem ethLinkDown (half : Nat) : Statement (.ethLinkDown half) := of_no_site _ rfl
theorem ethRetrainDone (upA upB : Bool) : Statement (.ethRetrainDone upA upB) := of_no_site _ rfl
theorem idleEnterPoised : Statement (.idleEnterPoised) := of_no_site _ rfl
theorem idleEnterRetained : Statement (.idleEnterRetained) := of_no_site _ rfl
theorem wakeExit : Statement (.wakeExit) := of_no_site _ rfl
theorem exitComplete (ns : Nat) : Statement (.exitComplete ns) := of_no_site _ rfl
theorem sparingOccult (die phys trigger : Nat) : Statement (.sparingOccult die phys trigger) := of_no_site _ rfl
theorem routerOut (die phys trigger : Nat) : Statement (.routerOut die phys trigger) := of_no_site _ rfl
theorem obsSlotStart : Statement (.obsSlotStart) := of_no_site _ rfl
theorem scheduleEffect : Statement (.scheduleEffect) := of_no_site _ rfl
theorem almanacWatchdog : Statement (.almanacWatchdog) := of_no_site _ rfl
theorem meridianWatchdog : Statement (.meridianWatchdog) := of_no_site _ rfl
theorem pwrgdFall : Statement (.pwrgdFall) := of_no_site _ rfl
theorem resetAssert : Statement (.resetAssert) := of_no_site _ rfl
theorem resetRelease (straps : Nat) : Statement (.resetRelease straps) := of_no_site _ rfl
theorem refAonLoss : Statement (.refAonLoss) := of_no_site _ rfl
theorem refEthLoss : Statement (.refEthLoss) := of_no_site _ rfl
theorem refUlbLoss (die : Nat) : Statement (.refUlbLoss die) := of_no_site _ rfl
theorem portModeSearch : Statement (.portModeSearch) := of_no_site _ rfl
theorem bootreqTimeout : Statement (.bootreqTimeout) := of_no_site _ rfl
theorem bootObjectReceive (o : BootObject) : Statement (.bootObjectReceive o) := of_no_site _ rfl
theorem selfTestComplete (findings : List ClusterFinding) (die1Ok : Bool) (railsOk : Bool) : Statement (.selfTestComplete findings die1Ok railsOk) := of_no_site _ rfl
theorem tapReset : Statement (.tapReset) := of_no_site _ rfl
theorem idcode : Statement (.idcode) := of_no_site _ rfl
theorem samplePreload : Statement (.samplePreload) := of_no_site _ rfl
theorem extest : Statement (.extest) := of_no_site _ rfl
theorem clamp : Statement (.clamp) := of_no_site _ rfl
theorem highz : Statement (.highz) := of_no_site _ rfl
theorem extestPulse : Statement (.extestPulse) := of_no_site _ rfl
theorem extestTrain : Statement (.extestTrain) := of_no_site _ rfl
theorem bypass : Statement (.bypass) := of_no_site _ rfl
theorem siderealCounterAdvance : Statement (.siderealCounterAdvance) := of_no_site _ rfl
theorem linkFrameSend (die link : Nat) : Statement (.linkFrameSend die link) := of_no_site _ rfl
theorem linkSignalRetry (die link : Nat) : Statement (.linkSignalRetry die link) := of_no_site _ rfl
theorem linkTransmitterRestart (die link : Nat) : Statement (.linkTransmitterRestart die link) := of_no_site _ rfl
theorem entryComplete : Statement (.entryComplete) := of_no_site _ rfl
theorem emergencyEnd : Statement (.emergencyEnd) := of_no_site _ rfl
theorem vddAonLoss : Statement (.vddAonLoss) := of_no_site _ rfl
theorem pwrgdRise (straps : Nat) : Statement (.pwrgdRise straps) := of_no_site _ rfl
theorem refEthReturn : Statement (.refEthReturn) := of_no_site _ rfl
theorem managementCoreException : Statement (.managementCoreException) := of_no_site _ rfl
theorem arpNdEchoFrame (frame : PortFrame) : Statement (.arpNdEchoFrame frame) := of_no_site _ rfl

end Sys2Proof.Laws.Lawful
end

