-- ==== Sys2Proof/Tests/Slice0.lean ====
section
/-!
SUPPORT. The package's own tests: terms that WellFormed refuses, states and operands that meet the hypotheses of every
statement, and results that the spec's rules give.
-/

namespace Sys2Proof.Tests

open Sys2Proof Sys2Proof.Machine

set_option Elab.async false

def zIssue : Issue := ⟨0, 0, 0⟩
def zCmdHead : CmdHead := ⟨0, 0, 0⟩
def zAgent : Agent := ⟨.host, 0⟩
def zStreamSlot : StreamSlot := ⟨0, 0, 0, 0, 0, 0, 0, 0, 0, 0⟩
def zLoadSlot : LoadSlot := ⟨0, 0, 0, 0, 0, 0, 0⟩
def zSetSlot : SetSlot := ⟨0, 0, 0, 0, 0, 0, 0, 0, 0, 0, 0, 0⟩
def zTloadSlot : TloadSlot := ⟨0, 0, 0, 0⟩
def zVecSlot : VecSlot := ⟨0, 0, 0, 0, 0, 0, 0, 0, 0, 0⟩
def zVmemSlot : VmemSlot := ⟨0, 0, 0, 0, 0, 0, 0, 0, 0⟩
def zTopkSlot : TopkSlot := ⟨0, 0, 0, 0, 0, 0, 0, 0, 0⟩
def zIxldSlot : IxldSlot := ⟨0, 0, 0⟩
def zGatherSlot : GatherSlot := ⟨0, 0, 0, 0, 0, 0, 0, 0⟩
def zScatterSlot : ScatterSlot := ⟨0, 0, 0, 0, 0, 0, 0, 0, 0⟩
def zStoreSlot : StoreSlot := ⟨0, 0, 0⟩
def zBulkSlot : BulkSlot := ⟨0, 0, 0, 0, 0⟩
def zSyncSlot : SyncSlot := ⟨0, 0, 0, 0, 0, 0, 0⟩
def zParamSlot : ParamSlot := ⟨0, 0, 0, 0⟩
def zLoopWord : LoopWord := ⟨0, 0, 0, 0⟩
def zApEntry : ApEntry := ⟨0, 0, 0, 0, 0, 0⟩
def zOpenArgs : OpenArgs := ⟨0, false, 0, 0, 0, 0, 0, 0, []⟩
def zXferArgs : XferArgs := ⟨0, 0, 0, 0, false⟩
def zPatchEntry : PatchEntry := ⟨0, 0, 0⟩
def zPortFrame : PortFrame := ⟨0, [], 0, 0⟩
def zPtpMessage : PtpMessage := ⟨0, 0, 0, (.followUp 0)⟩
def zIdentRecord : IdentRecord := ⟨0, 0, 0, 0, 0, 0, 0, 0⟩
def zScaleDesc : ScaleDesc := ⟨0, 0, 0, 0, 0, 0, 0⟩
def zLinkFrame : LinkFrame := ⟨[], false, 0, 0, none⟩

def goodCommands1 : List Instr :=
  [.hello zCmdHead 0 0, .openTenant zCmdHead zOpenArgs, .close zCmdHead 0, .write zCmdHead zXferArgs [],
    .read zCmdHead zXferArgs, .loadPlate zCmdHead 0 0 0, .patch zCmdHead 0 [], .arm zCmdHead, .launchAt zCmdHead 0,
    .stop zCmdHead 0 0, .query zCmdHead, .setWakeBudget zCmdHead 0 false, .setPowerLimit zCmdHead 0,
    .setPowerState zCmdHead 0, .setPowerSlice zCmdHead 0 0 0 0, .attest zCmdHead (List.replicate 32 0),
    .topologyBoard zCmdHead 0 0 0, .topologySystem zCmdHead 0 0 0, .topologySchedule zCmdHead 0 0 0, .epoch zCmdHead 0,
    .scalarInstruction zIssue 0 0, .stream zIssue zStreamSlot, .stationaryLoadNormal zIssue zLoadSlot,
    .stationaryLoadTransposed zIssue zLoadSlot, .cnvSet zIssue zSetSlot, .tload zIssue zTloadSlot,
    .add zIssue zVecSlot, .sub zIssue zVecSlot, .mul zIssue zVecSlot, .fma zIssue zVecSlot, .max zIssue zVecSlot,
    .min zIssue zVecSlot, .exp zIssue zVecSlot, .rcp zIssue zVecSlot, .rsq zIssue zVecSlot, .gelu zIssue zVecSlot,
    .silu zIssue zVecSlot, .rsum zIssue zVecSlot, .rmax zIssue zVecSlot, .smxi zIssue zVecSlot]

def goodCommands2 : List Instr :=
  [.smxs zIssue zVecSlot, .smxn zIssue zVecSlot, .rope zIssue zVecSlot, .vld zIssue zVmemSlot, .vst zIssue zVmemSlot,
    .rtld zIssue zVmemSlot, .copy zIssue zStoreSlot, .fill zIssue zStoreSlot, .d2s zIssue zStoreSlot,
    .s2d zIssue zStoreSlot, .send zIssue zBulkSlot, .recv zIssue zBulkSlot, .flagSet zIssue zSyncSlot,
    .flagClr zIssue zSyncSlot, .waits zIssue zSyncSlot, .waitc zIssue zSyncSlot, .flagCnt zIssue zSyncSlot,
    .arrive zIssue zSyncSlot, .topk zIssue zTopkSlot, .ixld zIssue zIxldSlot, .gather zIssue zGatherSlot,
    .scatter zIssue zScatterSlot, .paramSet zIssue zParamSlot, .paramAddi zIssue zParamSlot, .mova zIssue zParamSlot,
    .loop zIssue zLoopWord, .endProgram zIssue, .idleLine zIssue 0, .waitComplete zIssue, .openWaitComplete zIssue,
    .waitTimeout zIssue, .remoteFlagApply 0 0, .barrierRelease 0 0, .runComplete 0, .launchWakeStart 0,
    .gateAnnounce 0, .gateStart 0 0, .exposureArrival 0, .stampReceive 0 0 0 0, .regionBeatBegin 0 none]

def goodCommands3 : List Instr :=
  [.droopStretch 0 0 0, .governorWindow 0 0 0, .voltageGrant 0, .rateShortfall 0 0 0, .emergencyBegin 0,
    .emergencyDutyStep, .thermalTrip 0 0, .railFault 0 false, .leaderChoice [], .leaderTimeout [],
    .ptpMessage zPtpMessage, .linkSignalDetect 0 0, .linkLock 0 0 false 0, .linkSignalTimeout 0 0,
    .linkIdentEvaluate 0 0 zIdentRecord, .linkIdentTimeout 0 0, .linkLeaveUp 0 0 .fecLock, .linkRequeueTimeout 0 0,
    .linkFrameReceive 0 0 zLinkFrame, .linkSchedConsume 0 0, .flagopReceive 0 0, .haltReceive 0 0,
    .ephemerisSwitch 0 0 false, .schedOriginCheck 0 0 false false false, .unschedForward 0 0 0, .bnetWriteArrive 0 0,
    .bnetReadArrive 0 0, .bnetRdataArrive 0 0, .bnetWdoneArrive 0 0, .trailingRelease 0 0, .unschedSliceAccess 0 0 0,
    .epochFlip 0, .epochDrained 0, .epochDrainTimeout 0, .spadPwrWrite zAgent 0 0 0 0, .drainProbeArrive 0 0 0 0,
    .sliceDrainComplete 0 0 0, .sliceDrainTimeout 0 0 0, .sliceCloseDone 0 0 0, .sliceOpenDone 0 0 0]

def goodCommands4 : List Instr :=
  [.scrubRead 0 0 0, .scrubWriteback 0 0 0, .bnetEwdataHiWrite zAgent 0 0 0, .bnetRtdataWrite zAgent 0 0 0,
    .seqWinWrite zAgent 0 0 .lwin 0, .tenApLocWrite zAgent 0 0, .tenApSizeWrite zAgent 0 0, .ethCtlModeWrite zAgent 0,
    .clkGovWrite zAgent 0 0, .lnkCtlRetrain zAgent 0 0, .lnkCtlEn zAgent 0 0 false, .snetFopSet zAgent 0 0 0 0,
    .snetFopClr zAgent 0 0 0 0, .snetFopCnt zAgent 0 0 0 0, .registerWrite zAgent 0 0 (0, []), .readClear zAgent 0 0,
    .timeSidLoRead zAgent 0, .timeTBeatLoRead zAgent 0, .mxaColsLoRead zAgent 0 0 0, .bnetEwdataLoRead zAgent 0 0,
    .bnetSflitLoRead zAgent 0 0, .lnkPserLoRead zAgent 0 0, .tenObsS0LoRead zAgent 0, .pwrEnergyLoRead zAgent 0,
    .kprMdataRead zAgent 0, .fltRecRead zAgent 0, .fltTRunRead zAgent 0, .hostDwinWrite zAgent 0 0 0 [],
    .hostDwinRead zAgent 0 0 0 0, .octPacketReceive zPortFrame, .octRetransmit 0 0, .octWriteComplete 0,
    .octReadComplete 0, .scaleoutEgress 0, .scaleoutReceive 0 zScaleDesc [], .peerHaltReceive 0 0 0 0 0,
    .ethLinkDown 0, .ethRetrainDone false false, .idleEnterPoised, .idleEnterRetained]

def goodCommands5 : List Instr :=
  [.wakeExit, .exitComplete 0, .sparingOccult 0 0 0, .routerOut 0 0 0, .obsSlotStart, .scheduleEffect,
    .almanacWatchdog, .meridianWatchdog, .pwrgdFall, .resetAssert, .resetRelease 0, .refAonLoss, .refEthLoss,
    .refUlbLoss 0, .portModeSearch, .bootreqTimeout, .bootObjectReceive (.image [] [] []),
    .selfTestComplete [] false false, .tapReset, .idcode, .samplePreload, .extest, .clamp, .highz, .extestPulse,
    .extestTrain, .bypass, .siderealCounterAdvance, .linkFrameSend 0 0, .linkSignalRetry 0 0,
    .linkTransmitterRestart 0 0, .entryComplete, .emergencyEnd, .vddAonLoss, .pwrgdRise 0, .refEthReturn,
    .managementCoreException, .arpNdEchoFrame zPortFrame]

/-- Every command with its operands zero or empty: well formed. -/
def goodCommands : List Instr :=
  goodCommands1 ++ goodCommands2 ++ goodCommands3 ++ goodCommands4 ++ goodCommands5

def commandsAt1 (a : Issue) : List Instr :=
  [.scalarInstruction a 0 0, .stream a zStreamSlot, .stationaryLoadNormal a zLoadSlot,
    .stationaryLoadTransposed a zLoadSlot, .cnvSet a zSetSlot, .tload a zTloadSlot, .add a zVecSlot, .sub a zVecSlot,
    .mul a zVecSlot, .fma a zVecSlot, .max a zVecSlot, .min a zVecSlot, .exp a zVecSlot, .rcp a zVecSlot,
    .rsq a zVecSlot, .gelu a zVecSlot, .silu a zVecSlot, .rsum a zVecSlot, .rmax a zVecSlot, .smxi a zVecSlot,
    .smxs a zVecSlot, .smxn a zVecSlot, .rope a zVecSlot, .vld a zVmemSlot, .vst a zVmemSlot, .rtld a zVmemSlot,
    .copy a zStoreSlot, .fill a zStoreSlot, .d2s a zStoreSlot, .s2d a zStoreSlot, .send a zBulkSlot, .recv a zBulkSlot,
    .flagSet a zSyncSlot, .flagClr a zSyncSlot, .waits a zSyncSlot, .waitc a zSyncSlot, .flagCnt a zSyncSlot,
    .arrive a zSyncSlot, .topk a zTopkSlot, .ixld a zIxldSlot]

def commandsAt2 (a : Issue) : List Instr :=
  [.gather a zGatherSlot, .scatter a zScatterSlot, .paramSet a zParamSlot, .paramAddi a zParamSlot, .mova a zParamSlot,
    .loop a zLoopWord, .endProgram a, .idleLine a 0, .waitComplete a, .openWaitComplete a, .waitTimeout a]

/-- Every slot and line, at a place. -/
def commandsAt (a : Issue) : List Instr :=
  commandsAt1 a ++ commandsAt2 a

/-- Every host command, with a head. -/
def commandsOf (h : CmdHead) : List Instr :=
  [.hello h 0 0, .openTenant h zOpenArgs, .close h 0, .write h zXferArgs [], .read h zXferArgs, .loadPlate h 0 0 0,
    .bind h [(0, 0)] [] [], .patch h 0 [], .arm h, .launchAt h 0, .stop h 0 0, .query h, .setWakeBudget h 0 false,
    .setPowerLimit h 0, .setPowerState h 0, .setPowerSlice h 0 0 0 0, .attest h (List.replicate 32 0),
    .topologyBoard h 0 0 0, .topologySystem h 0 0 0, .topologySchedule h 0 0 0, .epoch h 0]

/-- Every register access, by an agent. -/
def accessesBy (a : Agent) : List Instr :=
  [.spadPwrWrite a 0 0 0 0, .bnetEwdataHiWrite a 0 0 0, .bnetRtdataWrite a 0 0 0, .seqWinWrite a 0 0 .lwin 0,
    .tenApLocWrite a 0 0, .tenApSizeWrite a 0 0, .ethCtlModeWrite a 0, .clkGovWrite a 0 0, .lnkCtlRetrain a 0 0,
    .lnkCtlEn a 0 0 false, .snetFopSet a 0 0 0 0, .snetFopClr a 0 0 0 0, .snetFopCnt a 0 0 0 0,
    .registerWrite a 0 0 (0, []), .readClear a 0 0, .timeSidLoRead a 0, .timeTBeatLoRead a 0, .mxaColsLoRead a 0 0 0,
    .bnetEwdataLoRead a 0 0, .bnetSflitLoRead a 0 0, .lnkPserLoRead a 0 0, .tenObsS0LoRead a 0, .pwrEnergyLoRead a 0,
    .kprMdataRead a 0, .fltRecRead a 0, .fltTRunRead a 0, .hostDwinWrite a 0 0 0 [], .hostDwinRead a 0 0 0 0]

def illFields1 : List Instr :=
  [.openTenant zCmdHead ({ zOpenArgs with tenant := 256 }), .write zCmdHead ({ zXferArgs with apt := 256 }) [],
    .read zCmdHead ({ zXferArgs with apt := 256 }), .stream zIssue ({ zStreamSlot with arr := 2 }),
    .stationaryLoadNormal zIssue ({ zLoadSlot with arr := 2 }),
    .stationaryLoadTransposed zIssue ({ zLoadSlot with arr := 2 }), .cnvSet zIssue ({ zSetSlot with arr := 2 }),
    .tload zIssue ({ zTloadSlot with arr := 2 }), .add zIssue ({ zVecSlot with core := 2 }),
    .sub zIssue ({ zVecSlot with core := 2 }), .mul zIssue ({ zVecSlot with core := 2 }),
    .fma zIssue ({ zVecSlot with core := 2 }), .max zIssue ({ zVecSlot with core := 2 }),
    .min zIssue ({ zVecSlot with core := 2 }), .exp zIssue ({ zVecSlot with core := 2 }),
    .rcp zIssue ({ zVecSlot with core := 2 }), .rsq zIssue ({ zVecSlot with core := 2 }),
    .gelu zIssue ({ zVecSlot with core := 2 }), .silu zIssue ({ zVecSlot with core := 2 }),
    .rsum zIssue ({ zVecSlot with core := 2 }), .rmax zIssue ({ zVecSlot with core := 2 }),
    .smxi zIssue ({ zVecSlot with core := 2 }), .smxs zIssue ({ zVecSlot with core := 2 }),
    .smxn zIssue ({ zVecSlot with core := 2 }), .rope zIssue ({ zVecSlot with core := 2 }),
    .vld zIssue ({ zVmemSlot with core := 2 }), .vst zIssue ({ zVmemSlot with core := 2 }),
    .rtld zIssue ({ zVmemSlot with core := 2 }), .copy zIssue ({ zStoreSlot with ps := 64 }),
    .fill zIssue ({ zStoreSlot with ps := 64 }), .d2s zIssue ({ zStoreSlot with ps := 64 }),
    .s2d zIssue ({ zStoreSlot with ps := 64 }), .send zIssue ({ zBulkSlot with pa := 64 }),
    .recv zIssue ({ zBulkSlot with pa := 64 }), .flagSet zIssue ({ zSyncSlot with flag := 256 }),
    .flagClr zIssue ({ zSyncSlot with flag := 256 }), .waits zIssue ({ zSyncSlot with flag := 256 }),
    .waitc zIssue ({ zSyncSlot with flag := 256 }), .flagCnt zIssue ({ zSyncSlot with flag := 256 }),
    .arrive zIssue ({ zSyncSlot with flag := 256 })]

def illFields2 : List Instr :=
  [.topk zIssue ({ zTopkSlot with vc := 2 }), .ixld zIssue ({ zIxldSlot with vc := 2 }),
    .gather zIssue ({ zGatherSlot with vc := 2 }), .scatter zIssue ({ zScatterSlot with vc := 2 }),
    .paramSet zIssue ({ zParamSlot with pd := 64 }), .paramAddi zIssue ({ zParamSlot with pd := 64 }),
    .mova zIssue ({ zParamSlot with pd := 64 }), .loop zIssue ({ zLoopWord with lc := 4 }),
    .ptpMessage ({ zPtpMessage with half := 2 }), .linkIdentEvaluate 0 0 ({ zIdentRecord with port := 256 }),
    .octPacketReceive ({ zPortFrame with half := 2 }), .scaleoutReceive 0 ({ zScaleDesc with dest := 65536 }) [],
    .arpNdEchoFrame ({ zPortFrame with half := 2 })]

/-- Every command with a record of fields, one of them out of range. -/
def illFields : List Instr :=
  illFields1 ++ illFields2

def illOperands1 : List Instr :=
  [.hello zCmdHead 4294967296 0, .hello zCmdHead 0 65536, .close zCmdHead 256, .loadPlate zCmdHead 256 0 0,
    .loadPlate zCmdHead 0 4294967296 0, .loadPlate zCmdHead 0 0 4294967296, .patch zCmdHead 4294967296 [],
    .stop zCmdHead 256 0, .stop zCmdHead 0 4294967296, .setWakeBudget zCmdHead 4294967296 false,
    .setPowerLimit zCmdHead 65536, .setPowerState zCmdHead 256, .setPowerSlice zCmdHead 256 0 0 0,
    .setPowerSlice zCmdHead 0 2 0 0, .setPowerSlice zCmdHead 0 0 32 0, .setPowerSlice zCmdHead 0 0 0 4,
    .topologyBoard zCmdHead 256 0 0, .topologyBoard zCmdHead 0 4294967296 0, .topologyBoard zCmdHead 0 0 4294967296,
    .topologySystem zCmdHead 256 0 0, .topologySystem zCmdHead 0 4294967296 0, .topologySystem zCmdHead 0 0 4294967296,
    .topologySchedule zCmdHead 256 0 0, .topologySchedule zCmdHead 0 4294967296 0,
    .topologySchedule zCmdHead 0 0 4294967296, .epoch zCmdHead 4, .idleLine zIssue 65536, .remoteFlagApply 2 0,
    .remoteFlagApply 0 24, .barrierRelease 256 0, .barrierRelease 0 256, .runComplete 256, .launchWakeStart 256,
    .gateAnnounce 256, .gateStart 8 0, .gateStart 0 256, .exposureArrival 256, .stampReceive 256 0 0 0,
    .stampReceive 0 16 0 0, .stampReceive 0 0 4294967296 0]

def illOperands2 : List Instr :=
  [.regionBeatBegin 8 none, .droopStretch 8 0 0, .droopStretch 0 8 0, .droopStretch 0 0 65536, .governorWindow 8 0 0,
    .governorWindow 0 65536 0, .governorWindow 0 0 8, .voltageGrant 8, .rateShortfall 256 0 0, .rateShortfall 0 8 0,
    .rateShortfall 0 0 4294967296, .emergencyBegin 32, .thermalTrip 2 0, .thermalTrip 0 256, .railFault 4 false,
    .linkSignalDetect 2 0, .linkSignalDetect 0 24, .linkLock 2 0 false 0, .linkLock 0 24 false 0,
    .linkSignalTimeout 2 0, .linkSignalTimeout 0 24, .linkIdentEvaluate 2 0 zIdentRecord,
    .linkIdentEvaluate 0 24 zIdentRecord, .linkIdentTimeout 2 0, .linkIdentTimeout 0 24, .linkLeaveUp 2 0 .fecLock,
    .linkLeaveUp 0 24 .fecLock, .linkRequeueTimeout 2 0, .linkRequeueTimeout 0 24, .linkFrameReceive 2 0 zLinkFrame,
    .linkFrameReceive 0 24 zLinkFrame, .linkSchedConsume 2 0, .linkSchedConsume 0 24, .flagopReceive 2 0,
    .flagopReceive 0 24, .haltReceive 2 0, .haltReceive 0 24, .ephemerisSwitch 2 0 false, .ephemerisSwitch 0 24 false,
    .schedOriginCheck 2 0 false false false]

def illOperands3 : List Instr :=
  [.schedOriginCheck 0 4294967296 false false false, .unschedForward 2 0 0, .unschedForward 0 24 0,
    .unschedForward 0 0 16, .bnetWriteArrive 2 0, .bnetWriteArrive 0 24, .bnetReadArrive 2 0, .bnetReadArrive 0 24,
    .bnetRdataArrive 2 0, .bnetRdataArrive 0 64, .bnetWdoneArrive 2 0, .bnetWdoneArrive 0 64, .trailingRelease 2 0,
    .trailingRelease 0 24, .unschedSliceAccess 2 0 0, .unschedSliceAccess 0 24 0, .unschedSliceAccess 0 0 4,
    .epochFlip 2, .epochDrained 2, .epochDrainTimeout 2, .spadPwrWrite zAgent 2 0 0 0, .spadPwrWrite zAgent 0 32 0 0,
    .spadPwrWrite zAgent 0 0 4 0, .drainProbeArrive 2 0 0 0, .drainProbeArrive 0 24 0 0, .drainProbeArrive 0 0 4 0,
    .drainProbeArrive 0 0 0 64, .sliceDrainComplete 2 0 0, .sliceDrainComplete 0 24 0, .sliceDrainComplete 0 0 4,
    .sliceDrainTimeout 2 0 0, .sliceDrainTimeout 0 24 0, .sliceDrainTimeout 0 0 4, .sliceCloseDone 2 0 0,
    .sliceCloseDone 0 24 0, .sliceCloseDone 0 0 4, .sliceOpenDone 2 0 0, .sliceOpenDone 0 24 0, .sliceOpenDone 0 0 4,
    .scrubRead 2 0 0]

def illOperands4 : List Instr :=
  [.scrubRead 0 24 0, .scrubRead 0 0 4, .scrubWriteback 2 0 0, .scrubWriteback 0 24 0, .scrubWriteback 0 0 4,
    .bnetEwdataHiWrite zAgent 2 0 0, .bnetEwdataHiWrite zAgent 0 32 0, .bnetRtdataWrite zAgent 2 0 0,
    .bnetRtdataWrite zAgent 0 32 0, .seqWinWrite zAgent 2 0 .lwin 0, .seqWinWrite zAgent 0 32 .lwin 0,
    .tenApLocWrite zAgent 2 0, .tenApSizeWrite zAgent 2 0, .clkGovWrite zAgent 2 0, .lnkCtlRetrain zAgent 2 0,
    .lnkCtlRetrain zAgent 0 24, .lnkCtlEn zAgent 2 0 false, .lnkCtlEn zAgent 0 24 false, .snetFopSet zAgent 2 0 0 0,
    .snetFopSet zAgent 0 32 0 0, .snetFopSet zAgent 0 0 256 0, .snetFopSet zAgent 0 0 0 256,
    .snetFopClr zAgent 2 0 0 0, .snetFopClr zAgent 0 32 0 0, .snetFopClr zAgent 0 0 256 0,
    .snetFopClr zAgent 0 0 0 256, .snetFopCnt zAgent 2 0 0 0, .snetFopCnt zAgent 0 32 0 0,
    .snetFopCnt zAgent 0 0 256 0, .snetFopCnt zAgent 0 0 0 256, .registerWrite zAgent 281474976710656 0 (0, []),
    .registerWrite zAgent 0 4294967296 (0, []), .readClear zAgent 281474976710656 0, .readClear zAgent 0 4294967296,
    .timeSidLoRead zAgent 2, .timeTBeatLoRead zAgent 2, .mxaColsLoRead zAgent 2 0 0, .mxaColsLoRead zAgent 0 32 0,
    .mxaColsLoRead zAgent 0 0 2, .bnetEwdataLoRead zAgent 2 0]

def illOperands5 : List Instr :=
  [.bnetEwdataLoRead zAgent 0 32, .bnetSflitLoRead zAgent 2 0, .bnetSflitLoRead zAgent 0 32, .lnkPserLoRead zAgent 2 0,
    .lnkPserLoRead zAgent 0 24, .tenObsS0LoRead zAgent 2, .pwrEnergyLoRead zAgent 2, .kprMdataRead zAgent 2,
    .fltRecRead zAgent 2, .fltTRunRead zAgent 2, .hostDwinWrite zAgent 2 0 0 [], .hostDwinWrite zAgent 0 32 0 [],
    .hostDwinWrite zAgent 0 0 4294967296 [], .hostDwinRead zAgent 2 0 0 0, .hostDwinRead zAgent 0 32 0 0,
    .hostDwinRead zAgent 0 0 4294967296 0, .hostDwinRead zAgent 0 0 0 4294967296, .octRetransmit 256 0,
    .octRetransmit 0 4294967296, .octWriteComplete 256, .octReadComplete 256, .scaleoutEgress 2,
    .scaleoutReceive 256 zScaleDesc [], .peerHaltReceive 256 0 0 0 0, .peerHaltReceive 0 16 0 0 0,
    .peerHaltReceive 0 0 4096 0 0, .peerHaltReceive 0 0 0 4294967296 0, .peerHaltReceive 0 0 0 0 256, .ethLinkDown 2,
    .exitComplete 4294967296, .sparingOccult 2 0 0, .sparingOccult 0 24 0, .sparingOccult 0 0 16, .routerOut 2 0 0,
    .routerOut 0 24 0, .routerOut 0 0 16, .resetRelease 64, .refUlbLoss 2, .linkFrameSend 2 0, .linkFrameSend 0 24]

def illOperands6 : List Instr :=
  [.linkSignalRetry 2 0, .linkSignalRetry 0 24, .linkTransmitterRestart 2 0, .linkTransmitterRestart 0 24,
    .pwrgdRise 64]

/-- Every bounded operand of a command, at the first value out of range. -/
def illOperands : List Instr :=
  illOperands1 ++ illOperands2 ++ illOperands3 ++ illOperands4 ++ illOperands5 ++ illOperands6

/-- Every command with its operands zero or empty is well formed. -/
theorem test_zero_operands_well_formed : goodCommands.all Instr.wellFormed = true := by decide

theorem test_issue_fields_ill_formed : ([{ zIssue with die := 2 }, { zIssue with phys := 24 },
    { zIssue with ctx := 16 }] : List Issue).all (fun x => !x.wf) = true := by decide

theorem test_cmdHead_fields_ill_formed : ([{ zCmdHead with tenant := 256 }, { zCmdHead with seq := 4294967296 },
    { zCmdHead with tag := 65536 }] : List CmdHead).all (fun x => !x.wf) = true := by decide

theorem test_agent_fields_ill_formed : ([{ zAgent with tenant := 256 }] : List Agent).all (fun x => !x.wf) = true := by decide

theorem test_streamSlot_fields_ill_formed : ([{ zStreamSlot with arr := 2 }, { zStreamSlot with wfmt := 16 },
    { zStreamSlot with tb := 2 }, { zStreamSlot with acc := 4 }, { zStreamSlot with pa := 64 },
    { zStreamSlot with pb := 64 }, { zStreamSlot with ps := 64 }, { zStreamSlot with po := 64 },
    { zStreamSlot with nm1 := 65536 },
    { zStreamSlot with accbase := 2048 }] : List StreamSlot).all (fun x => !x.wf) = true := by decide

theorem test_loadSlot_fields_ill_formed : ([{ zLoadSlot with arr := 2 }, { zLoadSlot with tb := 2 },
    { zLoadSlot with sfmt := 16 }, { zLoadSlot with pa := 64 }, { zLoadSlot with pb := 64 },
    { zLoadSlot with ps := 64 },
    { zLoadSlot with pitch := 65536 }] : List LoadSlot).all (fun x => !x.wf) = true := by decide

theorem test_setSlot_fields_ill_formed : ([{ zSetSlot with arr := 2 }, { zSetSlot with ofmt := 16 },
    { zSetSlot with rnd := 2 }, { zSetSlot with ovm := 2 }, { zSetSlot with chm := 2 }, { zSetSlot with clipen := 2 },
    { zSetSlot with psc := 64 }, { zSetSlot with pbi := 64 }, { zSetSlot with plo := 64 }, { zSetSlot with phi := 64 },
    { zSetSlot with pix := 64 }, { zSetSlot with pso := 64 }] : List SetSlot).all (fun x => !x.wf) = true := by decide

theorem test_tloadSlot_fields_ill_formed : ([{ zTloadSlot with arr := 2 }, { zTloadSlot with pa := 64 },
    { zTloadSlot with km1 := 2048 },
    { zTloadSlot with tbase := 2048 }] : List TloadSlot).all (fun x => !x.wf) = true := by decide

theorem test_vecSlot_fields_ill_formed : ([{ zVecSlot with core := 2 }, { zVecSlot with vd := 32 },
    { zVecSlot with va := 32 }, { zVecSlot with vb := 32 }, { zVecSlot with vc := 32 }, { zVecSlot with pk := 2 },
    { zVecSlot with sb := 2 }, { zVecSlot with pp := 64 }, { zVecSlot with row := 256 },
    { zVecSlot with pair := 2 }] : List VecSlot).all (fun x => !x.wf) = true := by decide

theorem test_vmemSlot_fields_ill_formed : ([{ zVmemSlot with core := 2 }, { zVmemSlot with vr := 32 },
    { zVmemSlot with pa := 64 }, { zVmemSlot with fmt := 16 }, { zVmemSlot with pk := 2 }, { zVmemSlot with rnd := 2 },
    { zVmemSlot with ovm := 2 }, { zVmemSlot with pix := 64 },
    { zVmemSlot with off := 65536 }] : List VmemSlot).all (fun x => !x.wf) = true := by decide

theorem test_topkSlot_fields_ill_formed : ([{ zTopkSlot with vc := 2 }, { zTopkSlot with xb := 4 },
    { zTopkSlot with kfmt := 2 }, { zTopkSlot with pa := 64 }, { zTopkSlot with pib := 64 },
    { zTopkSlot with cm1 := 4096 }, { zTopkSlot with km1 := 64 }, { zTopkSlot with outen := 2 },
    { zTopkSlot with po := 64 }] : List TopkSlot).all (fun x => !x.wf) = true := by decide

theorem test_ixldSlot_fields_ill_formed : ([{ zIxldSlot with vc := 2 }, { zIxldSlot with xb := 4 },
    { zIxldSlot with pa := 64 }] : List IxldSlot).all (fun x => !x.wf) = true := by decide

theorem test_gatherSlot_fields_ill_formed : ([{ zGatherSlot with vc := 2 }, { zGatherSlot with xb := 4 },
    { zGatherSlot with pw := 64 }, { zGatherSlot with po := 64 }, { zGatherSlot with pn := 64 },
    { zGatherSlot with gm1 := 64 }, { zGatherSlot with nbm1 := 64 },
    { zGatherSlot with stride := 65536 }] : List GatherSlot).all (fun x => !x.wf) = true := by decide

theorem test_scatterSlot_fields_ill_formed : ([{ zScatterSlot with vc := 2 }, { zScatterSlot with pl := 64 },
    { zScatterSlot with ps := 64 }, { zScatterSlot with po := 64 }, { zScatterSlot with pm := 64 },
    { zScatterSlot with tm1 := 4096 }, { zScatterSlot with dm1 := 256 }, { zScatterSlot with cm1 := 256 },
    { zScatterSlot with pf := 64 }] : List ScatterSlot).all (fun x => !x.wf) = true := by decide

theorem test_storeSlot_fields_ill_formed : ([{ zStoreSlot with ps := 64 }, { zStoreSlot with pd := 64 },
    { zStoreSlot with nm1 := 65536 }] : List StoreSlot).all (fun x => !x.wf) = true := by decide

theorem test_bulkSlot_fields_ill_formed : ([{ zBulkSlot with pa := 64 }, { zBulkSlot with nm1 := 65536 },
    { zBulkSlot with chk := 2 }, { zBulkSlot with pq := 64 },
    { zBulkSlot with pda := 64 }] : List BulkSlot).all (fun x => !x.wf) = true := by decide

theorem test_syncSlot_fields_ill_formed : ([{ zSyncSlot with flag := 256 }, { zSyncSlot with remote := 2 },
    { zSyncSlot with tcl := 32 }, { zSyncSlot with tdie := 2 }, { zSyncSlot with tpkg := 16 },
    { zSyncSlot with pt := 64 },
    { zSyncSlot with scope := 4 }] : List SyncSlot).all (fun x => !x.wf) = true := by decide

theorem test_paramSlot_fields_ill_formed : ([{ zParamSlot with pd := 64 }, { zParamSlot with pa := 64 },
    { zParamSlot with nm1 := 16 },
    { zParamSlot with imm := 4294967296 }] : List ParamSlot).all (fun x => !x.wf) = true := by decide

theorem test_loopWord_fields_ill_formed : ([{ zLoopWord with lc := 4 }, { zLoopWord with exitend := 2 },
    { zLoopWord with target := 65536 },
    { zLoopWord with cm1 := 65536 }] : List LoopWord).all (fun x => !x.wf) = true := by decide

theorem test_apEntry_fields_ill_formed : ([{ zApEntry with apt := 256 }, { zApEntry with die := 2 },
    { zApEntry with cluster := 32 }, { zApEntry with slice := 4 }, { zApEntry with base := 4096 },
    { zApEntry with size := 4097 }] : List ApEntry).all (fun x => !x.wf) = true := by decide

theorem test_openArgs_fields_ill_formed : ([{ zOpenArgs with tenant := 256 }, { zOpenArgs with keyid := 256 },
    { zOpenArgs with flags := 256 }, { zOpenArgs with barriers := 256 }, { zOpenArgs with lwin := 65536 },
    { zOpenArgs with dwin := 256 },
    { zOpenArgs with apertures := [{ zApEntry with die := 2 }] }] : List OpenArgs).all (fun x => !x.wf) = true := by decide

theorem test_xferArgs_fields_ill_formed : ([{ zXferArgs with apt := 256 }, { zXferArgs with offset := 4294967296 },
    { zXferArgs with n := 4294967296 },
    { zXferArgs with tseq := 4294967296 }] : List XferArgs).all (fun x => !x.wf) = true := by decide

theorem test_patchEntry_fields_ill_formed : ([{ zPatchEntry with cl := 256 },
    { zPatchEntry with reg := 256 }] : List PatchEntry).all (fun x => !x.wf) = true := by decide

theorem test_portFrame_fields_ill_formed : ([{ zPortFrame with half := 2 }] : List PortFrame).all (fun x => !x.wf) = true := by decide

theorem test_ptpMessage_fields_ill_formed : ([{ zPtpMessage with half := 2 }, { zPtpMessage with transport := 3 },
    { zPtpMessage with domain := 256 }] : List PtpMessage).all (fun x => !x.wf) = true := by decide

theorem test_identRecord_fields_ill_formed : ([{ zIdentRecord with port := 256 }, { zIdentRecord with die := 2 },
    { zIdentRecord with slot := 16 }] : List IdentRecord).all (fun x => !x.wf) = true := by decide

theorem test_scaleDesc_fields_ill_formed : ([{ zScaleDesc with dest := 65536 }, { zScaleDesc with apt := 256 },
    { zScaleDesc with flag := 256 }, { zScaleDesc with tcl := 32 },
    { zScaleDesc with tdie := 2 }] : List ScaleDesc).all (fun x => !x.wf) = true := by decide

theorem test_openArgs_too_many_apertures (a : ApEntry) :
    OpenArgs.wf { zOpenArgs with apertures := List.replicate 65536 a } = false := by
  simp only [OpenArgs.wf, List.length_replicate]
  exact Bool.and_eq_false_iff.mpr (.inl (Bool.and_eq_false_iff.mpr (.inr rfl)))

theorem test_place_ill_formed : ([⟨2, 0, 0⟩, ⟨0, 24, 0⟩, ⟨0, 0, 16⟩] : List Issue).all
    (fun a => (commandsAt a).all fun c => !c.wellFormed) = true := by decide

theorem test_head_ill_formed : ([⟨256, 0, 0⟩, ⟨0, 4294967296, 0⟩, ⟨0, 0, 65536⟩] : List CmdHead).all
    (fun h => (commandsOf h).all fun c => !c.wellFormed) = true := by decide

theorem test_agent_ill_formed : (accessesBy { zAgent with tenant := 256 }).all (fun c => !c.wellFormed) = true := by decide

theorem test_fields_ill_formed : illFields.all (fun c => !c.wellFormed) = true := by decide

theorem test_operands_ill_formed : illOperands.all (fun c => !c.wellFormed) = true := by decide

theorem test_lists_ill_formed : ([.bind zCmdHead [] [] [], .attest zCmdHead [],
    .patch zCmdHead 0 [{ zPatchEntry with reg := 256 }]] : List Instr).all (fun c => !c.wellFormed) = true := by decide

theorem test_write_too_long (h : CmdHead) (x : XferArgs) (b : Byte) : (Instr.write h x [List.replicate 9107 b]).wellFormed = false := by
  simp only [Instr.wellFormed, List.all_cons, dataPayloadWf, List.length_replicate]
  exact Bool.and_eq_false_iff.mpr (.inr rfl)

theorem test_bind_too_many (h : CmdHead) (e : Nat × Nat) : (Instr.bind h (List.replicate 49 e) [] []).wellFormed = false ∧
    (Instr.bind h [e] (List.replicate 4097 e) []).wellFormed = false := by
  simp only [Instr.wellFormed, List.length_replicate]
  exact ⟨Bool.and_eq_false_iff.mpr (.inl (Bool.and_eq_false_iff.mpr (.inr rfl))), Bool.and_eq_false_iff.mpr (.inr rfl)⟩

theorem test_bind_well_formed : (Instr.bind zCmdHead [(0, 0)] [] []).wellFormed = true := by decide

/-! A small machine: on die 0 logical cluster 0 stands at physical cluster 0, where tenant 1's plate runs in context 0, on
its first beat. -/

/-- The place of the running program. -/
def here : Issue := ⟨0, 0, 0⟩

def plateOf (scope exps : Nat) : Binding :=
  { entries := [(0, 0)], sites := [⟨0, 0, 0, 0, 0⟩], packages := [], xout := [], own := 0, scope := scope, exps := exps,
    explen := 100, lead := 0, pitch := 0, slices := [],
    syncLinks := [], rotating := false, cat := 1, seed := 0, peers := [] }

def runOf (beats : Nat) : Run := { Run.start 0 with phase := .inExposure, beats := [(0, beats)] }

def runner : Tenant :=
  { Tenant.init with
    st := .running, binding := some (plateOf 0 2), run := some (runOf 1),
    apertures := [⟨0, 0, 0, 0, 0, 4096, true⟩, ⟨1, 0, 0, 1, 0, 4096, true⟩] }

/-- Parameter registers: 1 the start of slice 0, 2 of slice 1, 3 and 4 further places, 5 outside every aperture, 6 a count. -/
def program : Ctx :=
  { Ctx.init with
    tenant := 1, valid := true, lsize := 1, dsize := 64, fcount := 4,
    params := [(2, 0x1000000), (3, 0x40000), (4, 0x80000), (5, 0x3000000), (6, 8)] }

def island : Cluster := { Cluster.init with ctxs := [(0, program)], running := some 0 }

/-- Logical cluster 0 stands at physical cluster 0 of die 0. -/
def mapped : State :=
  { State.reset with
    regs := [(regKey (dieSite 0) 0x9040, 0x80000000), (regKey (dieSite 0) 0x90C0, 0)],
    boot := { Boot.init with stage := 6, ready := true } }

def locked : Region := { Region.init with beat := 1, k := 1, lock := true }

def live : State :=
  { mapped with
    clusters := [(0, island)], tenants := [(1, runner)],
    regions := (List.range 8).map fun r => (r, locked) }

/-- The same machine with another program. -/
def State.program (s : State) (k : Ctx) : State := { s with clusters := [(0, { island with ctxs := [(0, k)] })] }

theorem island_clean (k : Ctx) : ({ island with ctxs := [(0, k)] } : Cluster).clean := by
  intro n
  rcases n with _ | _ | _ | n <;> exact ⟨rfl, rfl, rfl⟩

theorem live_clean : (live.cluster here.die here.phys).clean := island_clean program

theorem live_issuer : live.issuer here = some ⟨1, 0⟩ := by decide

/-! Witnesses: the queue and what is fixed. -/

theorem test_a_command_waits : ({ live with pending := [.bypass] } : State).pending = .bypass :: [] ∧
    State.reset.pending = [] := ⟨rfl, rfl⟩

theorem test_a_step_answers : State.reset.Inv Part.init ∧ ∃ t, step { State.reset with pending := [.idcode] } = .next t :=
  ⟨⟨rfl, Nat.le_refl _, rfl⟩, _, rfl⟩

/-! Witnesses: slots. -/

theorem test_slot_words_in_range : (Slot.stream ⟨0, 2, 0, 1, 7, 8, 9, 0, 2047, 0⟩).inRange = true ∧
    (Slot.stream ⟨0, 2, 0, 1, 7, 8, 9, 0, 2047, 0⟩).reason = 0 ∧
    (Slot.sync 5 ⟨255, 0, 0, 0, 0, 0, 0⟩).inRange = true ∧ (Slot.sync 5 ⟨255, 0, 0, 0, 0, 0, 0⟩).reason = 0 ∧
    (Slot.param 2 ⟨63, 0, 0, 0xFFFFFFFF⟩).inRange = true ∧ (Slot.param 2 ⟨63, 0, 0, 0xFFFFFFFF⟩).reason = 0 ∧
    ∃ x, decodeSlot 5 0x0000000201010081 = .ok x :=
  ⟨by decide, by decide, by decide, by decide, by decide, by decide, _, rfl⟩

theorem test_a_slot_can_issue_or_not : live.issuer here = some ⟨1, 0⟩ ∧ (Instr.endProgram here).site = some here ∧
    isWaitEvent (.endProgram here) = false ∧ State.reset.issuer here = none := by decide

theorem test_a_check_fails : (Instr.fill here ⟨6, 5, 0⟩).site = some here ∧
    planOf (.fill here ⟨6, 5, 0⟩) live ⟨1, 0⟩ = some (storePlan (live.ctxAt here) 2 ⟨6, 5, 0⟩) ∧
    live.planFails here ⟨1, 0⟩ (storePlan (live.ctxAt here) 2 ⟨6, 5, 0⟩) = some (5, 0x3000000) ∧
    live.spanOk here 1 ⟨4, 0x80000, 512, 32⟩ = true ∧ live.spanOk here 1 ⟨2, 0x0FFFE10, 0x1F1, 0⟩ = false := by decide

/-- Every kind of position: addition to a register and to x0, a division of a latency, stores inside the window and to an
address that is none. -/
theorem test_positions_run :
    (∃ e0 e1, posEffect island program 1 0 0 (decodePos 0x00100293) = .ok e0 ∧
      posEffect island program 1 0 0 (decodePos 0x00000013) = .ok e1 ∧ live.issuer here = some ⟨1, 0⟩) ∧
    (5 : Nat) ≠ 0 ∧ (island.xreg 0 + 65532).toNat + 4 ≤ program.dsize * 1024 ∧ program.dsize ≤ 64 ∧
    (island.xreg 0 + 0x1010C).toNat = 0x1010C :=
  ⟨⟨_, _, rfl, rfl, by decide⟩, by decide, by decide, by decide, by decide⟩

theorem test_stores_pass_their_checks : live.issuer here = some ⟨1, 0⟩ ∧ (live.cluster 0 0).clean ∧
    live.planFails here ⟨1, 0⟩ (storePlan (live.ctxAt here) 1 ⟨3, 4, 3⟩) = none ∧
    live.planFails here ⟨1, 0⟩ (storePlan (live.ctxAt here) 2 ⟨6, 4, 0⟩) = none ∧
    live.planFails here ⟨1, 0⟩ (storePlan (live.ctxAt here) 3 ⟨6, 4, 1023⟩) ≠ none ∧
    live.planFails here ⟨1, 0⟩ (storePlan (live.ctxAt here) 3 ⟨6, 4, 1022⟩) = none ∧
    live.planFails here ⟨1, 0⟩ (storePlan (live.ctxAt here) 4 ⟨3, 6, 0⟩) = none :=
  ⟨live_issuer, live_clean, by decide, by decide, by decide, by decide, by decide⟩

theorem test_a_copy_goes_on : ({ issued := 0, beats := 4, params := [], work := .store 1 ⟨3, 4, 3⟩, got := [] } : Task).issued ≤
    (⟨1, 3⟩ : Issuer).beat ∧ (live.cluster 0 0).clean := ⟨by decide, live_clean⟩

theorem test_loads_pass_their_checks :
    live.planFails here ⟨1, 0⟩ (loadPlan (live.ctxAt here) false ⟨0, 0, 2, 1, 2, 3, 32⟩) = none ∧
    live.planFails here ⟨1, 0⟩ (loadPlan (live.ctxAt here) true ⟨1, 1, 2, 1, 2, 3, 32⟩) = none ∧
    live.planFails here ⟨1, 0⟩ (tloadPlan (live.ctxAt here) ⟨0, 1, 2047, 0⟩) = none ∧ 64 ≤ 2047 ∧
    live.planFails here ⟨1, 0⟩ (tloadPlan (live.ctxAt here) ⟨0, 1, 63, 0⟩) = none ∧ 63 < 64 := by decide

theorem test_a_stream_passes_its_checks : live.issuer here = some ⟨1, 0⟩ ∧ (live.cluster here.die here.phys).clean ∧
    live.planFails here ⟨1, 0⟩ (streamPlan (live.ctxAt here) ⟨0, 2, 0, 0, 1, 2, 3, 0, 63, 0⟩
      (((live.cluster 0 0).arr 0).bank 0).fmt (((live.cluster 0 0).arr 0).setup.getD CnvSetup.init) (live.catOf 1)) = none :=
  ⟨live_issuer, live_clean, by decide⟩

/-- A softmax row that has taken in nothing and one that has; a rotary position of zero over finite lanes. -/
theorem test_vector_forms : live.issuer here = some ⟨1, 0⟩ ∧ (((live.cluster 0 0).vcore 0).row 255).2 = 0 ∧
    (({ VCore.init with rows := [(3, (0, 0x3F800000))] } : VCore).row 3).2 ≠ 0 ∧
    ((live.ctxAt here).param 0).toNat % 2 ^ 24 = 0 ∧
    (∀ w ∈ ((live.cluster 0 0).vcore 0).reg 31, ∃ n m e, f32 w = .fin n m e) ∧ 127 < 128 := by
  refine ⟨live_issuer, by decide, by decide, by decide, fun w h => ?_, by decide⟩
  have : w = 0 := by
    have e : ((live.cluster 0 0).vcore 0).reg 31 = List.replicate 128 0 := by decide
    rw [e] at h
    exact List.eq_of_mem_replicate h
  subst this
  exact ⟨_, _, _, rfl⟩

theorem test_vector_memory_passes_its_checks : live.issuer here = some ⟨1, 0⟩ ∧ (live.cluster here.die here.phys).clean ∧
    live.planFails here ⟨1, 0⟩ (vmemPlan (live.ctxAt here) 0x20 { zVmemSlot with vr := 31, pa := 3 } (live.catOf 1)) = none ∧
    live.planFails here ⟨1, 0⟩ (vmemPlan (live.ctxAt here) 0x22 { zVmemSlot with pa := 3 } (live.catOf 1)) = none ∧
    live.planFails here ⟨1, 0⟩ (vmemPlan (live.ctxAt here) 0x21 { zVmemSlot with pa := 3, pk := 1 } (live.catOf 1)) = none ∧
    live.planFails here ⟨1, 0⟩ (vmemPlan (live.ctxAt here) 0x21 { zVmemSlot with pa := 3, fmt := 2 } (live.catOf 1)) = none :=
  ⟨live_issuer, live_clean, by decide, by decide, by decide, by decide⟩

/-- A selection of several beats and one of a single beat; a gathered entry below NIDX and one above; a scatter of several
lists and of one. -/
theorem test_selection_passes_its_checks : live.issuer here = some ⟨1, 0⟩ ∧ (live.cluster here.die here.phys).clean ∧
    live.planFails here ⟨1, 0⟩ (topkPlan (live.ctxAt here) { zTopkSlot with pa := 3, cm1 := 4095 } 1) = none ∧
    1 < topkBeats { zTopkSlot with pa := 3, cm1 := 4095 } ∧
    live.planFails here ⟨1, 0⟩ (topkPlan (live.ctxAt here) { zTopkSlot with pa := 3, cm1 := 63 } 1) = none ∧
    topkBeats { zTopkSlot with pa := 3, cm1 := 63 } = 1 ∧
    live.planFails here ⟨1, 0⟩ (ixldPlan (live.ctxAt here) { zIxldSlot with pa := 3 } 1) = none ∧
    live.planFails here ⟨1, 0⟩ (gatherPlan (live.ctxAt here) { zGatherSlot with pw := 3, po := 4, pn := 6, stride := 1 } 1) = none ∧
    (Tab.get 0 island.xb 0).toNat < ((live.ctxAt here).param 6).toNat % 65536 ∧
    ((live.ctxAt here).param 6).toNat % 65536 ≤ (Tab.get 0 ({ island with xb := [(0, 8)] } : Cluster).xb 0).toNat ∧
    live.planFails here ⟨1, 0⟩ (scatterPlan (live.ctxAt here) { zScatterSlot with pl := 3, ps := 4, po := 1, pm := 2, tm1 := 128 } 1) = none ∧
    live.planFails here ⟨1, 0⟩ (scatterPlan (live.ctxAt here) { zScatterSlot with pl := 3, ps := 4, po := 1, pm := 2, tm1 := 127 } 1) = none :=
  ⟨live_issuer, live_clean, by decide, by decide, by decide, by decide, by decide, by decide, by decide, by decide, by decide,
    by decide⟩

theorem test_bulk_passes_its_checks : live.issuer here = some ⟨1, 0⟩ ∧ (live.cluster here.die here.phys).clean ∧
    live.planFails here ⟨1, 0⟩ (bulkPlan (live.ctxAt here) 1 { zBulkSlot with pa := 3, nm1 := 31 }) = none ∧
    live.planFails here ⟨1, 0⟩ (bulkPlan (live.ctxAt here) 2 { zBulkSlot with pa := 3 }) = none ∧
    (live.ctxAt here).recv = none ∧ (({ program with recv := some ⟨0, 1, 0, false, 0, 0, 0⟩ } : Ctx).recv ≠ none) :=
  ⟨live_issuer, live_clean, by decide, by decide, by decide, by decide⟩

theorem test_parameter_writes_due :
    ({ program with pwrites := [⟨4, 63, 7, 0xFFFFFFFF, true⟩] } : Ctx).pwrites = [⟨4, 63, 7, 0xFFFFFFFF, true⟩] ∧
    (∀ w ∈ program.pwrites, w.reg ≠ 63) ∧ ∀ w ∈ ({ program with pwrites := [⟨5, 63, 7, 0, true⟩] } : Ctx).pwrites, 4 < w.due := by
  decide

/-- Two stores and an update due on beat 4, the update in the middle; one store meets it. -/
def collision : List PWrite := [⟨4, 63, 1, 0xFF, false⟩, ⟨4, 63, 7, 0xFFFFFFFF, true⟩, ⟨4, 62, 2, 0xFF, false⟩]

theorem test_parameter_collision_met :
    (∀ x ∈ ([⟨4, 63, 1, 0xFF, false⟩, ⟨4, 62, 2, 0xFF, false⟩] : List PWrite), x.update = false ∧ x.due ≤ 4) ∧
    collision.Perm [⟨4, 63, 7, 0xFFFFFFFF, true⟩, ⟨4, 63, 1, 0xFF, false⟩, ⟨4, 62, 2, 0xFF, false⟩] ∧
    ({ program with pwrites := collision } : Ctx).pwrites = collision ∧
    (∃ x ∈ collision, x.update = false ∧ x.reg = 63) ∧
    (∀ x ∈ ([⟨4, 62, 2, 0xFF, false⟩] : List PWrite), x.reg ≠ 63) ∧ (62 : Nat) ≠ 63 := by decide

theorem test_a_store_reaches_the_last_parameter : program.dsize ≤ 64 ∧
    (Cluster.init.xreg 0 + (0x100FC : Word)).toNat = 0x10000 + 4 * 63 := by decide

/-- The kind 11 value stays and the collision is counted (R165). -/
theorem test_parameter_collision : ((({ program with pwrites := collision } : Ctx).commitParams 4).1.param 63 = 7) ∧
    (({ program with pwrites := collision } : Ctx).commitParams 4).1.pcoll = 1 := by decide

theorem test_loop_counters_disarmed : Tab.get false program.armed 3 = false ∧ (0 : Nat) < (⟨3, 1, 0, 65535⟩ : LoopWord).cm1 ∧
    (0 : Nat) ≠ 3 := by decide

/-! Witnesses: results, flags, waits and barriers. -/

theorem test_results_places : (List.replicate 128 (0 : Word)).length = 128 ∧ (0 : Nat) ≠ 31 ∧ clKey 1 23 ≠ clKey 0 0 :=
  ⟨List.length_replicate, by decide, by decide⟩

/-- A run that a halt has reached on beat 0. -/
def halting : Run := { runOf 1 with halting := some ⟨0, .bounds, 0⟩ }

theorem test_a_halt_is_reached :
    (({ live with tenants := [(1, { runner with run := some halting })] } : State).tenant 1).run = some halting := rfl

theorem test_halting_run : halting.halting = some ⟨0, .bounds, 0⟩ ∧ 0 ≤ Tab.get 0 halting.beats 0 - 1 := by decide

theorem test_memory_form_and_commands : Memory.wf live = true ∧ (Instr.vst here zVmemSlot).site ≠ none ∧
    (∃ t, exec (.fill here ⟨6, 4, 0⟩) live = .next t) ∧ (∃ t, exec (.sliceCloseDone 0 0 0) live = .next t) ∧
    (∃ t, exec (.hostDwinWrite ⟨.host, 1⟩ 0 0 65535 [1]) live = .next t) :=
  ⟨by decide, by decide, ⟨_, rfl⟩, ⟨_, rfl⟩, ⟨_, rfl⟩⟩

theorem test_flag_operations_meet : List.Perm [FlagOp.cnt, .clr, .set] [.set, .cnt, .clr] ∧
    FlagOp.set ∈ [FlagOp.cnt, .clr, .set] ∧ FlagOp.clr ∈ [FlagOp.cnt, .clr, .set] ∧ Flag.init.c < Flag.init.th := by decide

/-- A flag operation on its own cluster, to another die, and to a flag outside the partition; one that is due. -/
def remoteFlag : SyncSlot := { zSyncSlot with flag := 3, remote := 1, tcl := 0, tdie := 1 }

/-- Tenant 1 on both dies. -/
def twoDies : Binding := { plateOf 0 2 with sites := [⟨0, 0, 0, 0, 0⟩, ⟨24, 1, 0, 0, 0⟩] }

def both : State :=
  { live with clusters := [(0, island), (24, island)], tenants := [(1, { runner with binding := some twoDies })] }

theorem test_flag_slots_find_their_flags :
    (live.cluster 0 0).flagIn 1 3 = some 3 ∧ (live.cluster 0 0).flagIn 1 4 = none ∧ remoteFlag.remote ≠ 0 ∧
    (both.tenant 1).binding = some twoDies ∧ twoDies.scope = 0 ∧ twoDies.place 24 = some (1, 0) ∧
    (both.cluster 1 0).flagIn 1 3 = some 3 ∧ both.issuer here = some ⟨1, 0⟩ := by decide

theorem test_a_remote_operation_is_due :
    let m : FlagMsg := ⟨1, false, .set, 3, 0, false⟩
    let s : State := { live with clusters := [(0, { island with flagMsgs := [m] })] }
    m ∈ (s.cluster 0 0).flagMsgs ∧ m.loc = false ∧ s.flagDue 0 m = true := by decide

/-- A flag that is set, one that is clear and one that is open with a timed wait. -/
def flagged (f : Flag) (k : Ctx) : State := { live with clusters := [(0, { island with ctxs := [(0, k)], flags := [(3, f)] })] }

theorem test_waits_issue :
    (flagged { Flag.init with s := true } program).issuer here = some ⟨1, 0⟩ ∧
    ((flagged { Flag.init with s := true } program).cluster 0 0).flagIn 1 3 = some 3 ∧
    (((flagged { Flag.init with s := true } program).cluster 0 0).flag 3).opened = false ∧
    (((flagged { Flag.init with s := true } program).cluster 0 0).flag 3).s ≠ false ∧
    (((flagged { Flag.init with s := true } program).cluster 0 0).flag 3).s = true ∧
    (((flagged { Flag.init with opened := true } { program with waitTable := [(0, 0)] }).cluster 0 0).flag 3).opened = true ∧
    (0, ((live.ctxAt here).param 0).toNat % 2 ^ 24) ∈ ({ program with waitTable := [(0, 0)] } : Ctx).waitTable := by decide

/-- A wait of timeout 5 issued on beat 0, as it stands on a beat. -/
def waitingOn (w : Wait) (beat : Nat) : State :=
  { live with clusters := [(0, { island with ctxs := [(0, { program with wait := some w })] })],
              tenants := [(1, { runner with run := some (runOf (beat + 1)) })] }

theorem test_waits_end :
    (waitingOn ⟨3, false, false, 0, 5, true⟩ 4).waiting here = some (⟨1, 4⟩, ⟨3, false, false, 0, 5, true⟩) ∧
    (waitingOn ⟨3, false, true, 0, 5, true⟩ 5).waiting here = some (⟨1, 5⟩, ⟨3, false, true, 0, 5, true⟩) ∧
    (waitingOn ⟨3, true, false, 0, 5, false⟩ 4).waiting here = some (⟨1, 4⟩, ⟨3, true, false, 0, 5, false⟩) ∧
    (waitingOn ⟨3, true, false, 0, 5, false⟩ 5).waiting here = some (⟨1, 5⟩, ⟨3, true, false, 0, 5, false⟩) ∧ (0 : Nat) + 5 ≤ 5 := by
  decide

/-- A barrier of two participants, none arrived; and one whose last has. -/
theorem test_barriers :
    let x : Barrier := ⟨1, 0, 0, 3, [0, 24], [], 0, false⟩
    let y : Barrier := ⟨1, 0, 1, 3, [0, 24], [24, 0], 9, true⟩
    let s : State := { both with barriers := [x] }
    s.issuer here = some ⟨1, 0⟩ ∧ s.barriers[0]? = some x ∧ clKey 0 0 ∈ x.members ∧ clKey 0 0 ∉ x.arrivedBy ∧
    (s.barriers[0]? = some x ∧ x.number ≠ 1) ∧
    [y].find? (fun x => x.tenant = 1 && x.number = 0 && x.complete && x.scope < 2) = some y ∧ y.members.Nodup ∧
    (both.cluster (24 / 24) (24 % 24)).flagIn 1 3 = some 3 ∧ 1 ∉ y.members := by decide

theorem test_host_flag_operations :
    let s := flagged { Flag.init with opened := true } program
    s.power.st ≠ .off ∧ s.physOf 0 0 = some 0 ∧ (s.cluster 0 0).flagIn 1 3 = some 3 ∧ ((s.cluster 0 0).flag 3).opened = true ∧
    s.physOf 0 1 = none := by decide

/-! Witnesses: beats, runs, clocks and power. -/

/-- The machine with another run of the plate, bound with another scope. -/
def ran (b : Binding) (r : Run) : State := { live with tenants := [(1, { runner with binding := some b, run := some r })] }

/-- A machine when the beat in progress of region 0 is over. -/
def ended (s : State) : State := { s.finishBeat 0 with pending := s.pending, part := s.part }

def regionsAt (beat0 : Nat) : Tab Region := (List.range 8).map fun r => (r, { locked with beat := if r = 0 then beat0 else 1 })

theorem test_region_beats_forms :
    let due : State := { ran (plateOf 0 2) (runOf 2) with clusters := [(0, { island with flagMsgs := [⟨1, false, .set, 3, 1, false⟩] })] }
    let ahead : State := { live with regions := regionsAt 3 }
    let aheadWaits : State := { ran (plateOf 0 2) { runOf 101 with phase := .boundary } with regions := regionsAt 3 }
    let held : State := { ran (plateOf 0 2) (runOf 49) with links := [(0, { Link.init with st := .up, peerBeat := [(1, 0)] })] }
    let gated := ran (plateOf 0 2) { Run.start 0 with gate := some ⟨2, 0, some 0, [], false, []⟩ }
    let torn : State := { live with regions := regionsAt 4 }
    (live.clocked 0 = true ∧ live.clocked 7 = true ∧ due.torn 0 = none ∧ due.duties 0 = true) ∧
    (ahead.torn 0 = none ∧ ahead.duties 0 = false ∧ ahead.tethered 0 = true ∧ (ended ahead).atBoundary 0 = false) ∧
    (aheadWaits.torn 0 = none ∧ aheadWaits.duties 0 = false ∧ aheadWaits.tethered 0 = true ∧ (ended aheadWaits).atBoundary 0 = true) ∧
    (held.torn 0 = none ∧ held.duties 0 = false ∧ held.tethered 0 = false ∧ (ended held).linkHeld 0 = true ∧
      (ended held).atBoundary 0 = false) ∧
    (gated.torn 0 = none ∧ gated.duties 0 = false ∧ gated.tethered 0 = false ∧ (ended gated).linkHeld 0 = false ∧
      (ended gated).gatesNext 0 ≠ []) ∧
    (live.torn 0 = none ∧ live.duties 0 = false ∧ live.tethered 0 = false ∧ (ended live).linkHeld 0 = false ∧
      (ended live).gatesNext 0 = []) ∧
    torn.torn 0 = some 1 ∧
    (live.flt 0).breaches < 2 ∧ 2 ≤ (({ live with flt0 := { Flt.init with breaches := 2 } } : State).flt 0).breaches := by
  decide

/-- At the end of the 25 MHz period the time can be interpolated no further. -/
theorem interpolate_late (s : State) (h : s.clock.phase = 63) : s.interpolate = { s with fresh := s.fresh + 1 } := by
  have e : ¬ s.clock.phase < (Config.freeWord s.fresh).toNat % 64 := by omega
  simp [State.interpolate, e]

/-- A machine at the end of the 25 MHz period. -/
def lateIn (s : State) : State := { s with clock := { s.clock with phase := 63 } }

theorem test_gates_forms :
    let waits := ran (plateOf 0 2) (Run.start 0)
    let stands := ran (plateOf 0 2) { runOf 101 with phase := .boundary }
    (waits.clocked 1 = true ∧ waits.power.moving = false ∧ (waits.tenant 1).st = .running ∧
      reached waits.clock.sid ((Run.start 0).launch - nsUnits 1205) = true) ∧
    ((stands.tenant 1).run = some { runOf 101 with phase := .boundary } ∧ (stands.tenant 1).binding = some (plateOf 0 2)) := by
  decide

/-- A gate whose time has not come, one whose clusters run another context, and one that opens. -/
theorem test_gates_begin :
    let gate := fun (b : Binding) (at_ : DWord) =>
      lateIn (ran b { Run.start 0 with gate := some ⟨2, at_, some at_, [], false, []⟩ })
    let early := gate (plateOf 0 2) (nsUnits 100)
    let turns := { plateOf 0 2 with rotating := true, sites := [⟨0, 0, 0, 0, 1⟩] }
    let away := gate turns 0
    let ready := gate (plateOf 0 2) 0
    (early.clocked 0 = true ∧ 1 ∈ early.gatesNext 0 ∧ early.duties 0 = false ∧ early.tethered 0 = false ∧
      (let u := (early.interpolate.finishBeat 0).catchUp
       u.gatesNext 0 = [1] ∧ (u.tenant 1).binding = some (plateOf 0 2) ∧ reached u.now (nsUnits 100) = false)) ∧
    (1 ∈ away.gatesNext 0 ∧ away.duties 0 = false ∧ away.tethered 0 = false ∧
      (let u := (away.interpolate.finishBeat 0).catchUp
       u.gatesNext 0 = [1] ∧ (u.tenant 1).binding = some turns ∧ reached u.now 0 = true ∧ u.switchedTo 1 = false)) ∧
    (1 ∈ ready.gatesNext 0 ∧ ready.duties 0 = false ∧ ready.tethered 0 = false ∧
      (let u := (ready.interpolate.finishBeat 0).catchUp
       u.gatesNext 0 = [1] ∧ (u.tenant 1).run = some { Run.start 0 with gate := some ⟨2, 0, some 0, [], false, []⟩ } ∧
       reached u.now 0 = true ∧ u.switchedTo 1 = true)) := by
  intro gate early turns away ready
  rw [interpolate_late early rfl, interpolate_late away rfl, interpolate_late ready rfl]
  decide

/-- A run that has ended its beats of exposure k. -/
def endedRun (exp n : Nat) : Run := { runOf n with exp := exp, done := [0] }

/-- The plate on two packages of a board. -/
def pair : Binding := { plateOf 1 2 with packages := [(0, 0), (3, 0)] }

theorem test_exposures_forms :
    (endedRun 0 100).exp + 1 < (plateOf 0 2).exps ∧ (endedRun 0 100).ended_ (plateOf 0 2) = true ∧
    (ran (plateOf 0 2) (endedRun 0 100)).quietFor 1 = true ∧ (endedRun 0 100).stopAfter = none ∧
    (endedRun 1 200).exp + 1 = (plateOf 0 2).exps ∧ (endedRun 1 200).ended_ (plateOf 0 2) = true ∧
    (pair.scope ≠ 0 ∧ (runOf 1).exp ≤ 0 ∧ 3 ∈ pair.boardPeers live.slot live.boardIndex ∧
      (∀ x ∈ (runOf 1).stamps, ¬(x.1 = 3 ∧ x.2.1 = 0)) ∧
      ∃ x ∈ ({ runOf 1 with stamps := [(3, 0, 9)] } : Run).stamps, x.1 = 3 ∧ x.2.1 = 0) := by decide

/-- A board record that lists slots 0 and 4. -/
def boardRec : Board := ⟨[], [], [0, 4], Config.sha384 []⟩

theorem test_board_time_forms :
    let led : State := { live with clock := { Clock.init with leader := some 4, sid := nsUnits 1000000 } }
    let free : State := { live with clock := { Clock.init with leader := some 4, sid := nsUnits 1000000, role := 3 } }
    let leads : State := { live with clock := { Clock.init with leader := some 0, sid := nsUnits 1000000 }, eth := { Eth.init with upA := true },
                                     board := some boardRec }
    let waits : State := { leads with eth := { leads.eth with ptpWaits := true, ptpReq := some (5, false) } }
    live.power.st ≠ .off ∧ ({ live with power := { Power.init with st := .off } } : State).power.st = .off ∧ live.board = none ∧
    (leads.board.isSome = true ∧ leads.clock.role ≠ 3) ∧
    (led.clock.leader = some 4 ∧ (4 : Nat) ≠ led.slot ∧ led.elapsed led.clock.lastFseq0 1000000 = true) ∧
    (free.clock.leader = some 4 ∧ free.clock.role = 3 ∧ free.elapsed free.clock.lastFseq0 1000000 = true) ∧
    (leads.clock.leader = some leads.slot ∧ leads.elapsed leads.clock.lastFseq0 1000000 = true) ∧
    leads.takesPtp ⟨0, 0, 0, .sync false 7⟩ = true ∧ leads.takesPtp ⟨0, 0, 0, .sync true 7⟩ = true ∧
    leads.takesPtp ⟨0, 1, 0, .sync false 7⟩ = false ∧ leads.takesPtp ⟨0, 0, 0, .followUp 7⟩ = true ∧ leads.eth.ptpWaits = false ∧
    waits.takesPtp ⟨0, 0, 0, .followUp 7⟩ = true ∧ waits.eth.ptpWaits = true ∧ leads.takesPtp ⟨0, 0, 0, .delayResp 9⟩ = true ∧
    leads.eth.ptpReq = none ∧ waits.takesPtp ⟨0, 0, 0, .delayResp 9⟩ = true ∧ waits.eth.ptpReq = some (5, false) := by decide

/-- R54, R258: a leader that a record lists and an UP bundle, or a relay with one, reaches claims the board; the own package,
ROLE 0b00, follows. -/
theorem test_a_claimant_leads :
    let s : State := { live with board := some boardRec, links := [(0, { Link.init with st := .up, peer := some { zIdentRecord with slot := 4 } })] }
    (s.follow [⟨4, 1, [0], false⟩]).clock.leader = some 4 ∧ (s.follow [⟨4, 0, [0], false⟩]).clock.leader = some 0 ∧
    (s.follow [⟨5, 1, [0], false⟩]).clock.leader = some 0 := by decide

theorem test_governor_forms :
    let hot : State := { live with power := { Power.init with emergency := true } }
    let up : State := { live with regions := [(0, { locked with pendUp := true })] }
    let warned : State := { live with regions := [(0, { locked with stretched := 2 })] }
    live.clocked 0 = true ∧ bitsOf (live.clkGov 0) 0 6 ≤ 63 ∧ 0 < bitsOf (live.clkGov 0) 0 6 ∧
    ((live.region 0).stretched ≠ (live.region 0).beat + 1 ∧ live.atBoundary 0 = false) ∧ warned.atBoundary 0 = false ∧
    (warned.region 0).stretched = (warned.region 0).beat + 1 ∧ hot.power.emergency = true ∧ hot.clocked 7 = true ∧
    (up.power.emergency = false ∧ up.power.duty = 0 ∧ (up.region 0).monitorFailed = false ∧ (up.region 0).pendUp = true ∧
      up.clocked 0 = true) ∧
    (live.tenant 1).inRegion 0 = true ∧ (live.tenant 1).run = some (runOf 1) ∧ (38550 : Nat) ≤ 38550 ∧ 38550 < 38551 := by decide

theorem test_emergency_forms :
    let hot : State := { live with power := { Power.init with emergency := true }, clock := { Clock.init with sid := nsUnits 100000 } }
    let cools : State := { live with power := { Power.init with duty := 15 }, clock := { Clock.init with sid := nsUnits 100000 } }
    let tested : State := { live with boot := { Boot.init with stage := 4 } }
    live.power.st ≠ .off ∧ live.boot.ready = true ∧ live.power.emergency = false ∧ 7 % 8 ≠ 0 ∧
    (hot.power.emergency = true ∧ hot.boot.ready = true ∧ hot.elapsed hot.power.emergStep 100000 = true) ∧
    (cools.power.emergency = false ∧ 0 < cools.power.duty ∧ cools.elapsed cools.power.emergStep 100000 = true) ∧
    (2 < 3 ∧ live.boot.stage = 6) ∧ tested.boot.stage = 4 := by decide

/-! Witnesses: board links and the die networks. -/

/-- The machine with one link of die 0. -/
def linked (l : Link) : State := { live with links := [(0, l)] }

def later50 : Clock := { Clock.init with sid := nsUnits 100000000 }

theorem test_link_training_forms :
    let down := linked { Link.init with st := .down }
    let retries := linked { Link.init with retryAt := some 0 }
    let seen := { linked { Link.init with st := .signal } with clock := later50 }
    let named := { linked { Link.init with st := .ident } with clock := later50 }
    let retrains := linked { Link.init with st := .retrain }
    (((down.link 0 0).st = .down ∧ (down.link 0 0).en = true ∧ (down.link 0 0).retryAt = none ∧ down.linksOn = true) ∧
    ((retries.link 0 0).retryAt = some 0 ∧ retries.linksOn = true ∧ reached retries.clock.sid 0 = true) ∧
    ((seen.link 0 0).st = .signal ∧ 20 ≤ 20 ∧ 20 < 21 ∧ seen.elapsed (seen.link 0 0).since 50000000 = true) ∧
    ((named.link 0 0).st = .ident ∧ named.elapsed (named.link 0 0).since 2000000 = true) ∧
    ((retrains.link 0 0).st = .retrain ∧ retrains.linksOn = true) ∧
    ((linked { Link.init with en := false }).link 0 0).en = false) := by decide

/-- The record of a far end of another serial, speaking versions 1 to 2. -/
def farEnd : IdentRecord := ⟨7, 3, 0, 1, 1, 2, 0, 0⟩

theorem test_link_evaluation_forms :
    let s := linked { Link.init with st := .ident, identRow := 3, exchanges := 64, ident := some { farEnd with sid := 5 } }
    let early := linked { Link.init with st := .ident, identRow := 3, exchanges := 63 }
    (early.link 0 0).st = .ident ∧ (early.link 0 0).exchanges < 64 ∧
    (s.link 0 0).st = .ident ∧ 3 ≤ (s.link 0 0).identRow ∧ 64 ≤ (s.link 0 0).exchanges ∧
    (s.link 0 0).ident = some { farEnd with sid := 5 } ∧ ({ { farEnd with sid := 5 } with sid := 0 } : IdentRecord) = { farEnd with sid := 0 } ∧
    ({ farEnd with serial := 0 } : IdentRecord).serial = s.part.serial ∧ farEnd.serial ≠ s.part.serial ∧
    min 9 (vmaxOf s.part.step) < ({ farEnd with vmin := 9, vmax := 9 } : IdentRecord).vmin ∧
    farEnd.vmin ≤ min farEnd.vmax (vmaxOf s.part.step) ∧ 1 ≤ min farEnd.vmax (vmaxOf s.part.step) ∧ s.board = none := by decide

theorem test_links_leave_forms :
    let up := linked { Link.init with st := .up, leftAt := some 0 }
    let gone := { linked { Link.init with st := .retrain, leftAt := some 0 } with clock := later50 }
    (up.link 0 0).st = .up ∧ (up.link 0 0).leftAt = some 0 ∧
    ((gone.link 0 0).st ≠ .up ∧ (gone.link 0 0).leftAt = some 0 ∧ gone.elapsed 0 1000000 = true ∧
      (gone.link 0 0).txPackets = []) := by decide

/-- A DATA header with its FSEQ and the PCRC of the frame before. -/
def headOf (fseq : Nat) (pcrc : Word) : List Byte :=
  FrameHead.bytes { ftype := 1, fseq := fseq, crsc := 15, crn := 0, kinds := [], nakv := false, nakseq := 0, beat := 0, ten := 0, ts := 0,
                    pcrc := pcrc }

/-- Logical cluster 0 is granted input EDGE0 of link 0, and switches it to LOC on every beat. -/
def edged (l : Link) : State :=
  { linked l with
    regs := live.regs ++ [(regKey (clSite 0 0) 0x6040, 0x01000000), (regKey (clSite 0 0) 0x6080, 1), (regKey (clSite 0 0) 0x60C0, 0x00200001)],
    routers := [(0, { Router.init with eph := [(0, 0xFFFFFFFFF5)] })] }

theorem test_frames_forms :
    let up := linked { Link.init with st := .up }
    let bad : LinkFrame := { zLinkFrame with bytes := headOf 15 0, uncor := true, maxsym := 9 }
    let g : LinkFrame := { zLinkFrame with bytes := [0x11] }
    let garbled : LinkFrame := { zLinkFrame with bytes := headOf 2 0 }
    let named := linked { Link.init with st := .ident, rxFrame := some (g, 0) }
    ((up.link 0 0).st = .up ∧ (up.link 0 0).rxFrame = none ∧ bad.uncor = true ∧ (up.link 0 0).failRow = 0 ∧ bad.maxsym < 10 ∧
      up.frameTenants 0 0 bad = []) ∧
    ((named.link 0 0).st = .ident ∧ (named.link 0 0).rxFrame = some (g, 0) ∧ g.uncor = false ∧ garbled.uncor = false ∧
      (readHead garbled.bytes).pcrc ≠ frameCrc g.bytes ∧ (readHead garbled.bytes).ftype = 1 ∧ garbled.maxsym < 10) ∧
    ((linked Link.init).link 0 0).st = .down := by decide

set_option maxRecDepth 4000 in
/-- A frame that the PCRC of the next one shows good, and what it holds. -/
theorem test_a_frame_is_judged :
    let g : LinkFrame := { zLinkFrame with bytes := [0x11] }
    let f : LinkFrame := { zLinkFrame with bytes := headOf 2 (frameCrc g.bytes) }
    let s := edged { Link.init with st := .up, rxFrame := some (g, 0) }
    (s.link 0 0).st = .up ∧ (s.link 0 0).rxFrame = some (g, 0) ∧ f.uncor = false ∧ (readHead f.bytes).pcrc = frameCrc g.bytes ∧
    (readHead f.bytes).ftype = 1 ∧ f.maxsym < 10 ∧ s.edgeTenant 0 0 = some 1 ∧ (s.link 0 0).rxPackets = [] ∧
    (readHead g.bytes).ftype = 1 ∧ (readHead g.bytes).fseq ∉ [0, 4, 8] ∧ (readHead g.bytes).nakv = false ∧
    readSync (slotAt g.bytes 0) = [] ∧
    (Taker.run { part := [], open_ := none, skip := false, flits := [], packets := [] } (readHead g.bytes).kinds g.bytes none).packets = [] := by
  decide

/-- Fields at the ends of their ranges. -/
theorem test_link_layouts_meet :
    let h : FrameHead := { ftype := 15, fseq := 15, crsc := 15, crn := 15, kinds := List.replicate 31 3, nakv := true, nakseq := 15,
                           beat := 2 ^ 20 - 1, ten := 255, ts := 2 ^ 48 - 1, pcrc := 0xFFFFFFFF }
    h.kinds.length = 31 ∧ (∀ k ∈ h.kinds, k < 4) ∧ readHead h.bytes = h ∧
    syncOfBits (syncBits (.flagop 255 15 65535 15 255 31 1)) = some (.flagop 255 15 65535 15 255 31 1) ∧
    readIdent (identBytes ⟨5, 31, 1, 15, 255, 255, 9, 6⟩) = ⟨5, 31, 1, 15, 255, 255, 9, 6⟩ := by decide

/-- The station of link 0 has a flit of tenant 1 for its router beat 2; that of link 1 has none. -/
theorem test_station_entries :
    let s := edged { Link.init with rxSched := [⟨9, []⟩, ⟨1, []⟩] }
    (1, 2) ∈ s.edgeDue 0 0 2 ∧ s.edgeDue 0 0 2 = [(1, 2)] ∧ (s.link 0 0).rxSched = [⟨9, []⟩] ++ ⟨1, []⟩ :: [] ∧
    (∀ g ∈ [(⟨9, []⟩ : Flit)], g.tenant ≠ 1) ∧ s.edgeDue 0 1 2 = [] ∧ s.edgeDue 0 0 100 = [] ∧ live.edgeDue 0 0 2 = [] := by decide

theorem test_sync_entries_forms :
    let idle : State := { State.reset with links := [(0, { Link.init with rxSync := [.flagop 1 3 0 0 3 0 0] })] }
    let s := { ran (plateOf 1 2) (runOf 50) with links := [(0, { Link.init with rxSync := [.flagop 1 3 1 1 3 0 0] })] }
    let h := { live with links := [(0, { Link.init with rxSync := [.halt 1 3 0 7] })] }
    ((idle.link 0 0).rxSync = [.flagop 1 3 0 0 3 0 0] ∧ (idle.tenant 1).binding = none ∧ (idle.tenant 1).run = none) ∧
    ((s.link 0 0).rxSync = [.flagop 1 3 1 1 3 0 0] ∧ (s.tenant 1).binding = some (plateOf 1 2) ∧
      (plateOf 1 2).place (24 * 0 + 0) = some (0, 0) ∧ FlagOp.ofCode 1 ≠ none ∧ s.liveBeat 1 0 = some 49 ∧
      flagDueAt 49 1 = true ∧ flagDueAt 48 1 = false ∧ (s.cluster 0 0).flagIn 1 3 = some 3) ∧
    (live.link 0 0).rxSync = [] ∧
    ((h.link 0 0).rxSync = [.halt 1 3 0 7] ∧ (h.tenant 1).st = .running ∧ (h.tenant 1).run = some (runOf 1) ∧
      (runOf 1).halting = none ∧ (State.reset.tenant 1).st ≠ .running) := by decide

/-! Witnesses: power states, slices and the networks of a die. -/

/-- The package with no plate running, idle since time 0, at 1 ms. -/
def idleFor (p : Power) : State :=
  { mapped with clusters := [(0, island)], regions := live.regions, power := p, clock := { Clock.init with sid := nsUnits 1000000 } }

theorem test_idle_forms :
    (idleFor { Power.init with deepest := 1 }).mayIdle .poised = true ∧ live.mayIdle .poised = false ∧
    (idleFor Power.init).mayIdle .retained = true ∧ live.mayIdle .retained = false ∧
    (idleFor Power.init).power.moving = false := by decide

theorem test_entries_complete_forms :
    let p := idleFor { Power.init with moving := true, target := .poised }
    let r := idleFor { Power.init with moving := true, target := .retained }
    (p.power.moving = true ∧ p.power.target = .poised) ∧ r.power.target = .retained ∧ r.slicesMoving = false ∧
    ∀ e ∈ r.clusters, ∀ n, (e.2.slice n).st ≠ .on := by
  refine ⟨by decide, by decide, by decide, fun e h n => ?_⟩
  obtain rfl : e = (0, island) := List.mem_singleton.mp h
  rcases n with _ | _ | _ | n <;> exact nofun

theorem test_wakes_forms :
    let w := idleFor { Power.init with st := .retained, wakes := [3] }
    let q := idleFor { Power.init with st := .poised }
    let l : State := { q with tenants := [(1, { runner with run := some (Run.start 0) })] }
    let far : State := { q with tenants := [(1, { runner with run := some (Run.start (nsUnits 2000000)) })] }
    (w.power.st ≠ .off ∧ w.power.st ≠ .active ∧ w.power.moving = false ∧ w.power.wakes ≠ []) ∧
    (q.power.wakes = [] ∧ q.fabricWaiting = false ∧ q.excluded = false ∧ ∀ e ∈ q.tenants, q.launchDue e.2 = false) ∧
    (l.power.st = .poised ∧ (l.tenant 1).st = .running ∧ (l.tenant 1).run = some (Run.start 0) ∧ (Run.start 0).phase = .waitLaunch ∧
      reached l.clock.sid ((0 : DWord) - nsUnits (l.power.st.exitNs + 1205)) = true ∧
      reached far.clock.sid (nsUnits 2000000 - nsUnits (far.power.st.exitNs + 1205)) = false) := by decide

theorem test_exits_forms :
    let s := { idleFor { Power.init with moving := true, target := .active, st := .retained } with
               clusters := [(0, { island with s0 := { Slice.init with st := .ret, target := .on } })] }
    s.power.moving = true ∧ s.power.target = .active ∧ s.power.st = .retained ∧ ((s.cluster 0 0).slice 0).target = .on ∧
    ((s.cluster 0 0).slice 0).st = .ret ∧ 45000 < 45001 := by decide

/-- The machine with one slice of the running cluster. -/
def sliced (x : Slice) : State := { live with clusters := [(0, { island with s0 := x })] }

theorem test_slice_writes_forms :
    (live.physOf 0 0 = some 0 ∧ live.pstate 0 0 ≠ 2 ∧ live.pstate 0 0 ≠ 3 ∧ live.physOf 0 23 = none ∧ live.power.st ≠ .off) ∧
    ((0x02 : Word).getLsbD 6 = false ∧ SliceTarget.ofCode (bitsOf (0x02 : Word) 0 2) = some .on ∧
      SliceTarget.ofCode (bitsOf (0x01 : Word) 0 2) = some .ret ∧ SliceTarget.ofCode (bitsOf (0x00 : Word) 0 2) = some .off) ∧
    ({ Slice.init with st := .closing } : Slice).moving = true ∧ ({ Slice.init with st := .on } : Slice).st = .on ∧
    Slice.init.st = .off ∧ (({ Slice.init with st := .ret, target := .ret } : Slice).target = .ret) ∧
    Slice.init.target ≠ .on := by decide

/-- Tenant 1's plate declares slice 0 of logical cluster 0. -/
def declaring : State :=
  { live with tenants := [(1, { runner with binding := some { plateOf 0 2 with slices := [(0, 0)] } })] }

theorem test_declared_slices_forms : declaring.declared 0 0 0 = true ∧ declaring.declared 0 0 1 = false ∧
    live.declared 0 0 0 = false ∧ SliceTarget.ret ≠ .on := by decide

/-- Source 40's drain probe of slice 0 of logical cluster 0, and a packet of another source before it. -/
def probe : Packet :=
  { daddr := 0, op := 1, len := 0, trl := true, ep := 0, vc := 0, tenant := 0, srcid := 40, spkg := 0, sdie := 0, tag := 0,
    status := 0, chk := false, data := [] }

/-- A slice that drains, with every probe come, or with all but source 40's, whose probe stands at the port. -/
def probed : Slice := { Slice.init with st := .closing, probes := List.range 41 }

def probing : State :=
  { sliced { Slice.init with st := .closing, probes := List.range 40 } with
    routers := [(0, { Router.init with arrived := [⟨0, 0, 39, 0, { probe with srcid := 39 }⟩, ⟨0, 0, 40, 0, probe⟩] })] }

theorem test_slice_drains_forms :
    let s := sliced { Slice.init with st := .closing }
    let done := sliced probed
    let late := { s with regions := [(0, { locked with beat := 65536 })] }
    let mine := fun (b : Buffered) => b.src = 40 ∧ sliceOf (addrOff b.pkt.daddr) = 0
    ((probing.router 0 0).arrived = [⟨0, 0, 39, 0, { probe with srcid := 39 }⟩] ++ ⟨0, 0, 40, 0, probe⟩ :: [] ∧
      (∀ y ∈ [(⟨0, 0, 39, 0, { probe with srcid := 39 }⟩ : Buffered)], ¬mine y) ∧ mine ⟨0, 0, 40, 0, probe⟩ ∧
      probing.isProbe 0 0 probe = true ∧ probe.srcid = 40 ∧
      ∀ y ∈ ((probing.cluster 0 0).slice 0).waiting ++ ((probing.cluster 0 0).slice 0).landing, ¬(y.src = 40 ∧ y.at_ = 1)) ∧
    (∀ b ∈ (s.router 0 0).arrived, ¬mine b) ∧
    (((s.cluster 0 0).slice 0).st = .closing ∧ ((s.cluster 0 0).slice 0).drained = none ∧ 40 ∈ s.drainSources 0 0 ∧
      40 ∉ ((s.cluster 0 0).slice 0).probes ∧ 41 ∉ s.drainSources 0 0) ∧
    ((∀ k ∈ done.drainSources 0 0, k ∈ ((done.cluster 0 0).slice 0).probes) ∧ ((done.cluster 0 0).slice 0).landing = [] ∧
      ((done.cluster 0 0).slice 0).st = .closing ∧ ((done.cluster 0 0).slice 0).drained = none ∧
      ∀ w ∈ ((done.cluster 0 0).slice 0).waiting, w.pkt.op ≠ 1) ∧
    (((late.cluster 0 0).slice 0).since + 65536 ≤ (late.regionOf 0 0).beat ∧ (s.regionOf 0 0).beat < 0 + 65536) := by decide

theorem test_slice_transitions_forms :
    let off := { sliced { Slice.init with st := .closing, drained := some 1 } with regions := [(0, { locked with beat := 65 })] }
    let ret := { sliced { Slice.init with st := .closing, target := .ret, drained := some 1 } with regions := [(0, { locked with beat := 65 })] }
    let back := { sliced { Slice.init with st := .closing, target := .on, drained := some 1 } with regions := [(0, { locked with beat := 65 })] }
    let cold := { sliced { Slice.init with st := .opening, target := .on } with regions := [(0, { locked with beat := 33408 })] }
    let warm := { sliced { Slice.init with st := .opening, target := .on, fromOff := false } with regions := [(0, { locked with beat := 640 })] }
    (1 + 64 ≤ (off.regionOf 0 0).beat ∧ ((off.cluster 0 0).slice 0).held = none ∧ ((off.cluster 0 0).slice 0).target = .off) ∧
    (((ret.cluster 0 0).slice 0).drained = some 1 ∧ ((ret.cluster 0 0).slice 0).target = .ret) ∧
    (((back.cluster 0 0).slice 0).drained = some 1 ∧ ((back.cluster 0 0).slice 0).target = .on ∧ back.power.st = .active ∧
      back.power.moving = false) ∧
    (((cold.cluster 0 0).slice 0).fromOff = true ∧ ((cold.cluster 0 0).slice 0).since + 33408 ≤ (cold.regionOf 0 0).beat) ∧
    (((warm.cluster 0 0).slice 0).fromOff = false ∧ ((warm.cluster 0 0).slice 0).since + 640 ≤ (warm.regionOf 0 0).beat) ∧
    (live.regionOf 0 0).beat < 0 + 640 := by decide

theorem test_scrubber_forms :
    let on : Slice := { Slice.init with st := .on }
    let at_ := fun (x : Slice) => { sliced x with regions := [(0, { locked with beat := 256 })] }
    ((((at_ on).cluster 0 0).slice 0).st = .on ∧ (at_ on).scrubInterval 0 0 ≠ 0 ∧ 0 + (at_ on).scrubInterval 0 0 ≤ ((at_ on).regionOf 0 0).beat ∧
      (at_ on).portIdle 0 0 0 false = true ∧ (∀ w ∈ on.ce ++ on.ue, w / 64 ≠ on.scrubRow)) ∧
    (({ on with ce := [63] } : Slice).ue = [] ∧ 63 / 64 = ({ on with ce := [63] } : Slice).scrubRow) ∧
    ({ at_ on with regs := (regKey 0 0x5008, 0) :: live.regs } : State).scrubInterval 0 0 = 0 ∧
    (({ on with scrubFix := [63] } : Slice).scrubFix ≠ [] ∧ (at_ { on with scrubFix := [63] }).portIdle 0 0 0 true = true) ∧
    on.scrubFix = [] := by decide

/-- Partition 0 of router 0 is tenant 1's, with every lane granted and one entry a period. -/
def routed (r : Router) : State :=
  { live with routers := [(0, r)],
              regs := [(regKey 0 0x6040, 0x01000000), (regKey 0 0x6080, 1), (regKey 0 0x60C0, 0x03FF03FF)] ++ live.regs }

/-- The entry that gives output lane 2 input 0, and a flit that is there on beat 0. -/
def forwards : Router := { Router.init with eph := [(0, 0xFFFFFFF0FF)], flits := [⟨0, 0, ⟨1, []⟩⟩] }

theorem test_scheduled_flits_forms :
    let stray := routed { Router.init with flits := [⟨1, 0, ⟨1, []⟩⟩] }
    let s := routed forwards
    ((s.partition 0 0 0).valid = true ∧ (∀ n, n < 16 → n ≠ 0 → (s.partition 0 0 n).valid = false) ∧ s.routerOut 0 0 = false ∧
      s.liveBeat (s.partition 0 0 0).tenant (regionKey 0 0) = some 0 ∧ violations (s.router 0 0) (s.cluster 0 0) (s.partition 0 0 0) 0 = [] ∧
      Tab.get 0 (s.router 0 0).switched 1 ≠ 1 ∧ Tab.get 0 ({ forwards with switched := [(1, 1)] } : Router).switched 1 = 1) ∧
    ((2, 0) ∈ (s.partition 0 0 0).named (s.router 0 0) 0 ∧ ⟨1, []⟩ ∈ (s.router 0 0).present 1 0 0 ∧ laneNext 0 0 2 = some (0, 6, 1)) ∧
    (∃ v, violations (stray.router 0 0) (stray.cluster 0 0) (stray.partition 0 0 0) 0 = [v]) :=
  ⟨by decide, by decide, _, rfl⟩

theorem test_origin_forms :
    let r : FaultRec := ⟨1, 0x11, 0, some 1, 0, 0, 9, 0, 0, 0, 0⟩
    let f : Flt := { Flt.init with ring := [r] }
    (∀ x ∈ f.ring, ¬(x.seq = 8 ∧ x.cause = 0x11)) ∧ f.ring.find? (fun r => r.seq = 9 && r.cause = 0x11) = some r ∧
    (∀ x ∈ f.ring, x.cause ≠ 0x12) ∧ ∀ e ∈ f.lastAt, e.1 ≠ faultPlace 0x12 r.phys := by decide

/-- A read of logical cluster 0, buffered at a router whose every route is an output lane. -/
def request : Packet :=
  { daddr := 0, op := 2, len := 8, trl := false, ep := 0, vc := 0, tenant := 1, srcid := 40, spkg := 0, sdie := 0, tag := 0,
    status := 0, chk := false, data := [] }

/-- The read in a router's buffer, decoded at its first router to physical cluster 0. -/
def head : Buffered := ⟨1, 0, 40, 0, request⟩

def held (out : BitVec 5) : Router :=
  { Router.init with rt := (List.range 256).map fun k => (k, out), bufs := [head] }

theorem test_packets_travel_forms :
    let s : State := { live with routers := [(7, held 2)] }
    let lost : State := { live with routers := [(7, { held 2 with rt := [] })] }
    let stalls := routed { held 2 with eph := [(0, 0xFFFFFFF0FF)] }
    (((s.router 0 7).heads.filter fun x => s.wants 0 7 x.pkt = 2) = [head] ∧ s.answeredHere 0 7 head = false ∧
      s.laneBusy 0 7 2 = false ∧ s.credit 0 7 2 head = true ∧ laneNext 0 7 2 = some (0, 13, 1) ∧ s.routerOut 0 7 = false ∧
      s.endsHere 0 7 request = false ∧ Tab.get 0 (s.router 0 7).sentAt 2 ≠ 2 ∧ s.eth.inbox = [] ∧ (s.router 0 7).outbox = []) ∧
    (((lost.router 0 7).heads.filter fun x => lost.wants 0 7 x.pkt = 15) = [head] ∧ lost.answeredHere 0 7 head = true) ∧
    (((stalls.router 0 0).heads.filter fun x => stalls.wants 0 0 x.pkt = 2) = [head] ∧
      stalls.answeredHere 0 0 head = false ∧ stalls.laneBusy 0 0 2 = true ∧
      (stalls.router 0 0).waitedAt ≠ 2 ∧ Tab.get 0 (stalls.router 0 0).sentAt 2 ≠ 2) ∧
    (Tab.get 0 ({ held 2 with sentAt := [(2, 2)] } : Router).sentAt 2 = 2 ∧ locked.beat + 1 = 2) ∧
    ((live.router 0 7).heads.filter fun x => live.wants 0 7 x.pkt = 2) = [] := by decide

theorem test_trailing_forms :
    let b : Buffered := head
    let r : Router := { Router.init with trailing := [b], fences := [(sourceKey request, 1), (sourceKey request, 2), (sourceKey request, 3)] }
    r.trailing = b :: [] ∧ (∀ v, v < 4 → v ≠ b.pkt.vc → (sourceKey b.pkt, v) ∈ r.fences) ∧ Router.init.fences = [] := by decide

/-- A write of eight bytes to the same place. -/
def store : Packet := { request with op := 1, data := [1, 2, 3, 4, 5, 6, 7, 8] }

theorem test_requests_forms :
    let b : Buffered := ⟨0, 0, 40, 0, request⟩
    let w : Buffered := ⟨0, 0, 40, 0, store⟩
    let on : Slice := { Slice.init with st := .on }
    let s : State := { sliced on with routers := [(0, { Router.init with arrived := [b, w] })] }
    let dark : State := { s with clusters := live.clusters }
    let busy : State := { s with clusters := [(0, { island with s0 := on, ports := [⟨0, false, 1, 1, 1⟩] })] }
    let a : Access := ⟨0, 40, 1, request⟩
    let waits := sliced { on with waiting := [a] }
    let lands := sliced { on with landing := [⟨0, 40, 1, store⟩] }
    ((s.router 0 0).arrived.find? (fun y => y.pkt.op = 2 && !s.isProbe 0 0 y.pkt) = some b ∧
      (s.router 0 0).arrived.find? (fun y => y.pkt.op = 1 && !s.isProbe 0 0 y.pkt) = some w ∧
      (s.router 0 0).room 0 6 = true ∧ (s.router 0 0).outbox = [] ∧ s.routerOut 0 0 = false ∧
      ∀ y ∈ (live.router 0 0).arrived, y.pkt.op ≠ 1) ∧
    (s.allowed 0 0 { request with tenant := 2 } = false) ∧
    (dark.allowed 0 0 request = true ∧ ((dark.cluster 0 0).slice 0).darkFor 40 1 = true) ∧
    (s.allowed 0 0 request = true ∧ s.allowed 0 0 store = true ∧ ((s.cluster 0 0).slice 0).darkFor 40 1 = false ∧
      ((s.cluster 0 0).slice 0).waiting = [] ∧ s.portIdle 0 0 0 false = true ∧ s.portIdle 0 0 0 true = true ∧ request.len ≠ 0) ∧
    busy.portIdle 0 0 0 false = false ∧
    (((lands.cluster 0 0).slice 0).landing = [⟨0, 40, 1, store⟩] ∧
      ∀ n, n < 4 → n ≠ 0 → ((lands.cluster 0 0).slice n).landing = []) ∧
    (((waits.cluster 0 0).slice 0).waiting = [a] ∧ ((waits.cluster 0 0).slice 0).st = .on ∧ waits.pstate 0 0 < 2 ∧
      waits.portIdle 0 0 0 false = true) := by decide

/-- A read of the last 4 bytes of the tenant's data window, in unit-local space (2^36 × 0b01). -/
def windowed (n : Nat) : Buffered := ⟨0, 0, 40, 0, { request with daddr := 2 ^ 36 + n, len := 4 }⟩

theorem test_local_requests_forms :
    let b := windowed 65532
    let s : State := { live with routers := [(0, { Router.init with arrived := [b] })] }
    let busy : State := { s with clusters := [(0, { island with dport := [(1, 1)] })] }
    (s.router 0 0).arrived.find? (fun y => y.pkt.op = 2 && !s.isProbe 0 0 y.pkt) = some b ∧ addrSpace b.pkt.daddr = 1 ∧
    (∀ j, j < 4 → (s.cluster 0 0).inWindow 1 (addrOff b.pkt.daddr + j) = true) ∧
    (s.cluster 0 0).inWindow 1 (addrOff (windowed 65533).pkt.daddr + 3) = false ∧
    s.dportIdle 0 0 = true ∧ busy.dportIdle 0 0 = false ∧ b.pkt.vc < 3 ∧ addrSpace request.daddr = 0 ∧
    live.refusedAt b.pkt = false ∧ live.refusedAt (windowed 65536).pkt = true := by decide

theorem test_requests_meet_no_error : ({ island with s0 := { Slice.init with st := .on } } : Cluster).clean := by
  intro n
  rcases n with _ | _ | _ | n <;> exact ⟨rfl, rfl, rfl⟩

theorem test_epochs_forms :
    let flips : State := { live with die0 := { Die.init with flipAt := some 1 } }
    let early : State := { live with die0 := { Die.init with flipAt := some 2 } }
    let drains : State := { live with die0 := { Die.init with draining := true },
                                      regions := (List.range 8).map fun r => (r, { locked with beat := 16 }) }
    let late : State := { drains with regions := (List.range 8).map fun r => (r, { locked with beat := 65536 }) }
    ((flips.dieOf 0).flipAt = some 1 ∧ 1 ≤ flips.topBeat ∧ (flips.dieOf 0).draining = false) ∧
    ((early.dieOf 0).flipAt = some 2 ∧ early.topBeat < 2) ∧
    (drains.undrained 0 = [] ∧ (∀ p, p < 24 → (drains.router 0 p).quiet + 16 ≤ (drains.regionOf 0 p).beat) ∧
      (drains.dieOf 0).drainFrom + 16 ≤ drains.topBeat ∧ (drains.dieOf 0).rewant = false ∧ drains.sparing = []) ∧
    ({ Die.init with draining := true, rewant := true } : Die).flipAt = none ∧
    ({ live with routers := [(0, { Router.init with bufs := [⟨0, 0, 0, 0, { request with ep := 1 }⟩] })] } : State).undrained 0 ≠ [] ∧
    ((late.dieOf 0).drainFrom + 65536 ≤ late.topBeat ∧ drains.topBeat < (drains.dieOf 0).drainFrom + 65536) := by decide

/-! Witnesses: registers and windows. -/

def keeper : Agent := ⟨.keeper, 0⟩
def mgmt : Agent := ⟨.mgmt, 0⟩
def host1 : Agent := ⟨.host, 1⟩

theorem test_register_rows_forms : live.slot < 16 ∧ (Instr.clkGovWrite keeper 1 7, 0x1F, 0x000C) ∈
    [(Instr.tenApSizeWrite keeper 1 7, 0x1F, 0x5018), (.clkGovWrite keeper 1 7, 0x1F, 0x000C)] ∧ (1 : Nat) < 2 ∧ 23 < 24 ∧
    live.power.st ≠ .off ∧ badAccess (live.regAddr 0 0x1F 0x8002) 4 = true ∧ badAccess (live.regAddr 0 0x1F 0x8000) 4 = false := by
  decide

/-- A board with a second package, which no link reaches. -/
def boarded : State :=
  { live with board := some { far := [], pins := [], slots := [0, 1], digest := 0 } }

theorem test_far_registers_forms :
    let x := boarded.regAddr 0 0x1F 0x8000 + 17592186044416
    boarded.power.st ≠ .off ∧ badAccess x 4 = false ∧ addrSlot x = 1 ∧ boarded.slot = 0 ∧
    (∃ b, boarded.board = some b ∧ 1 ∈ b.slots) ∧ boarded.homeLink 0 1 = none :=
  ⟨by decide, by decide, by decide, by decide, ⟨_, rfl, by decide⟩, by decide⟩

/-- Partition 0 of router 0 belongs to tenant 2, which does not run. -/
def stopped : State :=
  { live with regs := [(regKey 0 0x6040, 0x01000000), (regKey 0 0x6080, 2), (regKey 0 0x60C0, 0x03FF03FF)] ++ live.regs }

theorem test_cluster_writes_forms :
    (live.power.st ≠ .off ∧ live.physOf 0 0 = some 0 ∧ live.pstate 0 0 ≠ 2 ∧ live.pstate 0 0 ≠ 3) ∧
    (bitsOf (0x10000 : Word) 0 8 + bitsOf (0x10000 : Word) 8 9 ≤ 256) ∧
    (bitsOf (0x13F : Word) 0 8 < 64 ∧ bitsOf (0x13F : Word) 0 8 + bitsOf (0x13F : Word) 8 9 ≤ 64) ∧
    (256 < bitsOf (0x100FF : Word) 0 8 + bitsOf (0x100FF : Word) 8 9) ∧
    (host1.kind ≠ .keeper ∧ (word32 (program.lbase % 256 + program.lsize % 512 * 256) ^^^ 0) &&& 0x1FFFF ≠ 0) ∧
    (stopped.mayCommit 0 0 0 = true ∧ live.mayCommit 0 0 0 = false) ∧
    (({ live with die0 := { Die.init with draining := true } } : State).dieOf 0).draining = true ∧
    (let s : State := { live with sel := [(regKey 0 0x6014 * 1024 + agentCode keeper, 128)] }
     (s.dieOf 0).draining = false ∧ s.rtIndex keeper 0 0 / 128 ≠ epochBit (s.dieOf 0).epoch) := by decide

/-- The keeper's aperture selects name tenant 1 and aperture 0 of die 0. -/
def selects (t : Tenant) : State :=
  { live with tenants := [(1, t)], sel := [(regKey (dieSite 0) 0x5004 * 1024 + agentCode keeper, 1)] }

theorem test_die_writes_forms :
    let unused := selects { runner with apertures := [⟨0, 0, 0, 0, 0, 1, false⟩] }
    let used := selects { runner with apertures := [⟨0, 0, 0, 0, 0, 1, true⟩] }
    let x := unused.shownAperture keeper 0
    let y := used.shownAperture keeper 0
    (unused.power.st ≠ .off ∧ x.valid = false ∧
      unused.judgeAperture (some (1, x.apt)) { x with base := 4095, valid := true } = .ok) ∧
    ({ y with valid := false } : Aperture).valid = false ∧ y.valid = true ∧
    (unused.judgeAperture (some (1, x.apt)) { x with cluster := 1, valid := true } = .bounds) ∧
    (y.valid = true ∧ used.judgeAperture (some (1, y.apt)) { y with size := 4096 } = .ok ∧
      used.judgeAperture (some (1, y.apt)) { y with size := 4097 } = .bounds ∧ 4097 ≠ y.size) ∧
    (mayWriteLinks ⟨.host, 0⟩ = true ∧ mayWriteLinks host1 = false) ∧
    (((linked { Link.init with st := .quar }).link 0 0).st = .quar ∧ ((linked { Link.init with st := .up }).link 0 0).st = .up ∧
      ((linked Link.init).link 0 0).st = .down ∧ ((linked { Link.init with st := .spare }).link 0 0).st ≠ .down) := by decide

theorem test_latched_reads_forms :
    (live.physOf 0 0 = some 0 ∧ live.pstate 0 0 ≠ 2 ∧ live.pstate 0 0 ≠ 3 ∧ host1.tenant < 256 ∧ (23 : Nat) < 24) ∧
    (let s : State := { live with recent := [(regKey (dieSite 0) 0x6100, ⟨2, 7, 1⟩), (regKey 0 0x602C, ⟨2, 0, 3⟩)] }
     (Tab.get Recent.none_ s.recent (regKey (dieSite 0) 0x6100)).beat = s.siteBeat (dieSite 0) + 1 ∧
     (Tab.get Recent.none_ s.recent (regKey 0 0x602C)).beat = s.siteBeat 0 + 1 ∧
     (Tab.get Recent.none_ live.recent (regKey 0 0x602C)).beat ≠ live.siteBeat 0 + 1 ∧ clSite 0 0 = 0) ∧
    live.selectedRecord keeper 0 = none ∧
    (∃ r, State.selectedRecord { live with flt0 := { Flt.init with ring := [⟨1, 0x11, 0, some 1, 0, 0, 0, 0, 0, 0, 0⟩] } } keeper 0 = some r) ∧
    (agentCode host1 ≠ agentCode keeper ∧ seesCtx host1 ((live.cluster 0 0).ctx 0) = true ∧
      seesCtx ⟨.host, 2⟩ ((live.cluster 0 0).ctx 0) = false ∧ 79 < 80 ∧ privileged mgmt = true ∧ privileged host1 = false) :=
  ⟨by decide, by decide, by decide, ⟨_, rfl⟩, by decide⟩

theorem test_windows_forms :
    let c := live.cluster 0 0
    let out : State := { live with regs := [(regKey (dieSite 0) 0x9040, 0x80000000), (regKey (dieSite 0) 0x90C0, 0x200)] }
    let busy : State := { live with clusters := [(0, { island with dport := [(1, 1)] })] }
    (host1.kind = .host ∧ 65532 + 4 ≤ 0x10000 ∧ ∀ j, j < 4 → c.inWindow host1.tenant (65532 + j) = true) ∧
    (mgmt.kind = .mgmt ∧ 0x10000 ≤ 0x4FFFC ∧ 0x4FFFC + 4 ≤ 0x50000) ∧
    (¬((host1.kind = .host ∨ host1.kind = .remote) ∧ 65533 + 4 ≤ 0x10000 ∧ ∀ j, j < 4 → c.inWindow 1 (65533 + j) = true)) ∧
    (live.lineInUse c 1023 2 = true ∧ live.lineInUse c 1024 2 = false ∧ stopped.lineInUse c 1024 4096 = false) ∧
    (live.dportIdle 0 0 = true ∧ busy.dportIdle 0 0 = false) ∧ out.physOf 0 0 = some 0 ∧ ¬(out.pstate 0 0 ≠ 2 ∧ out.pstate 0 0 ≠ 3) := by
  decide

/-! Witnesses: the command transport, transfers, sparing, First Light and pins. -/

/-- Tenant 1's session 7, of acknowledgement time 8 µs. -/
def session : Session := Session.opened 7 8 0

def connected (x : Session) : State :=
  { live with tenants := [(1, { runner with session := some x, keys := [(5, 0)], keyid := 5 })], eth := { Eth.init with upA := true } }

/-- The bytes before the FCS of a frame that carries a UDP datagram, from port 1000 of 10.0.0.1 to a port of 10.0.0.2. -/
def unsealed (port : Nat) (payload : List Byte) : List Byte :=
  let bs := List.replicate 6 0 ++ List.replicate 6 1 ++ [0x08, 0x00] ++ IpPacket.bytes
    { src := .v4 0x0A000001, dst := .v4 0x0A000002, proto := 17, ttl := 64,
      data := beBytes 2 1000 ++ beBytes 2 port ++ beBytes 2 (8 + payload.length) ++ [0, 0] ++ payload }
  bs ++ List.replicate (60 - bs.length) 0

/-- That frame, received on half A with two symbols corrected. -/
def carrying (port : Nat) (payload : List Byte) : PortFrame :=
  ⟨0, unsealed port payload ++ wordBytes (fcs (unsealed port payload)), 2, 0⟩

def asker : UdpEnd := ⟨.v4 0x0A000001, 1000⟩

theorem carried (s : State) (port : Nat) (payload : List Byte)
    (h : let k := unsealed port payload
      60 ≤ k.length ∧ k.length ≤ 9212 ∧ (plainFrame k).etype = 0x0800 ∧
      openIp (plainFrame k) = some ⟨.v4 0x0A000001, .v4 0x0A000002, 17, 64, ((plainFrame k).body.drop 20).take (8 + payload.length)⟩ ∧
      openUdp 0 ⟨.v4 0x0A000001, .v4 0x0A000002, 17, 64, ((plainFrame k).body.drop 20).take (8 + payload.length)⟩ =
        some ⟨0, asker, port, payload⟩) :
    s.heard (carrying port payload) = .datagram ⟨0, asker, port, payload⟩ :=
  heard_udp s _ _ _ _ (openFrame_sealed _ h.1 h.2.1 (by rw [h.2.2.1]; decide)) (.inl h.2.2.1) h.2.2.2.1 rfl h.2.2.2.2

/-- A HELLO, and what spells no command. -/
def hello : List Byte := cmdHead 1 9
def noCommand : List Byte := cmdHead 0x12 9

/-- Packet `seq` of a command of tenant 1 under session 7 and key 5. -/
def octHead (seq : Nat) : OctHead :=
  { ver := 1, type := 1, full := false, dir := 0, rest := 0, tenant := 1, keyid := 5, session := 7, seq := seq, ackseq := 0,
    ackmap := 0, len := 8, seqref := 0 }

/-- Its datagram, with a ciphertext and a tag of zeros. -/
def wire (h : OctHead) : List Byte := h.bytes ++ List.replicate 24 0

set_option maxRecDepth 8000 in
theorem test_frames_heard :
    (connected session).hears (carrying 319 []) = true ∧ live.hears (carrying 319 []) = false ∧
    (connected session).heard { carrying 319 [] with bytes := [] } = .bad ∧
    (connected session).heard (carrying 319 []) = .datagram ⟨0, asker, 319, []⟩ ∧ (319 : Nat) ≠ (connected session).eth.octport ∧
    (connected session).heard (carrying 4791 []) = .datagram ⟨0, asker, 4791, []⟩ ∧ (4791 : Nat) ≠ (connected session).eth.octport ∧
    (connected session).heard (carrying 0x4B0E (wire { octHead 1 with keyid := 6 })) =
      .datagram ⟨0, asker, 0x4B0E, wire { octHead 1 with keyid := 6 }⟩ ∧
    40 ≤ (wire { octHead 1 with keyid := 6 }).length ∧
    (connected session).openOct ⟨0, asker, 0x4B0E, wire { octHead 1 with keyid := 6 }⟩ = none :=
  ⟨by decide, by decide, by decide, carried _ _ _ (by decide), by decide, carried _ _ _ (by decide), by decide,
    carried _ _ _ (by decide), by decide, by decide⟩

/-- The port answers an ARP request for an address of the half that asked. -/
theorem test_frames_answered :
    let f : EthFrame :=
      { dst := List.replicate 6 0xFF, src := List.replicate 6 1, tci := none, etype := 0x0806,
        body := [0, 1, 8, 0, 6, 4, 0, 1] ++ List.replicate 6 1 ++ [10, 0, 0, 1] ++ List.replicate 6 0 ++ [10, 0, 0, 2] }
    let s : State := { connected session with eth := { (connected session).eth with addresses := [⟨0, some (0x0A000002, 24)⟩] } }
    ∃ r, s.arpReply 0 f = some r := ⟨_, rfl⟩

/-- A command taken, where its packet opens: what AES-GCM answers is left open (notes/assumptions/2.md). -/
theorem test_packets_open (s : State) (d : Datagram) (h : OctHead) (k : BitVec 256) (bs : List Byte) (r : readOct d.payload = h)
    (key : s.keyOf h.tenant h.keyid = some k)
    (o : Config.gcmOpen k h.nonce (d.payload.take 24) (d.payload.drop 24) = some bs) :
    s.openOct d = some ⟨d.half, d.src, h, bs⟩ := by
  subst r
  simp only [State.openOct, key, o, Option.map_some]

set_option maxRecDepth 8000 in
theorem test_packets_taken :
    let s := connected session
    let queued : Session := { session with queue := List.replicate 64 (1, 1, hello) }
    let idle : State := { s with tenants := [(1, { runner with keys := [(5, 0)], keyid := 5 })] }
    (s.heard (carrying 0x4B0E (wire (octHead 1))) = .datagram ⟨0, asker, 0x4B0E, wire (octHead 1)⟩ ∧ readOct (wire (octHead 1)) = octHead 1 ∧
      s.keyOf 1 5 = some 0 ∧ s.eth.octport = 0x4B0E) ∧
    ((octHead 1).ver = 1 ∧ (octHead 1).rest = 0 ∧ (octHead 1).len = hello.length ∧ (octHead 1).dir = 0 ∧ (octHead 1).type = 1 ∧
      (s.tenant 1).opening = none ∧ (s.tenant 1).xfer = none ∧ (s.tenant 1).session = some session ∧ session.id = (octHead 1).session ∧
      session.heldOoo = [] ∧ (∀ e ∈ session.queue, e.2.1 = 1 ∧ reservedCommand e.2.2 = false)) ∧
    ((octHead 1).seq = session.ackseq + 1 ∧ (s.tenant 1).commands < 64 ∧ reservedCommand hello = false ∧ reservedCommand noCommand = true ∧
      noCommand.length = 8 ∧ session.queue = []) ∧
    (({ octHead 1 with rest := 1 } : OctHead).rest ≠ 0 ∧ readOct (wire { octHead 1 with rest := 1 }) = { octHead 1 with rest := 1 }) ∧
    (octHead 1).seq ≤ ({ session with ackseq := 1 } : Session).ackseq ∧
    (64 ≤ ((connected queued).tenant 1).commands ∧ ∀ e ∈ queued.queue, e.2.1 = 1 ∧ reservedCommand e.2.2 = false) ∧
    ((idle.tenant 1).session = none ∧ idle.keyOf 1 5 = some 0 ∧ (octHead 1).session ≠ 0 ∧ (idle.tenant 1).commands < 64 ∧
      fieldAt hello 0 1 = 1) :=
  ⟨⟨carried _ _ _ (by decide), by decide, rfl, rfl⟩, by decide, by decide, by decide, by decide, by decide, by decide⟩

theorem test_retransmissions_forms :
    let q : TxPacket := ⟨3, 2, [], 15, 0, 0, none, []⟩
    let x : Session := { session with unacked := [q] }
    let late : State := { connected x with clock := { Clock.init with sid := nsUnits 8000 } }
    (late.tenant 1).session = some x ∧ x.unacked = [q] ∧ reached late.clock.sid (q.sentAt + nsUnits (x.ackt * 1000)) = true ∧
    q.sends < 16 ∧ 16 ≤ ({ q with sends := 16 } : TxPacket).sends ∧
    (reached (connected x).clock.sid (q.sentAt + nsUnits (x.ackt * 1000)) = false ∧ ((connected x).tenant 1).peers = [] ∧ ((connected x).tenant 1).opening = none) := by decide

theorem test_ethernet_forms :
    let dark : State := { live with pins := { Pins.init with refEth := false } }
    (2 ≤ live.boot.stage ∧ live.power.st ≠ .off ∧ live.pins.refEth = true) ∧ dark.pins.refEth = false ∧
    (connected session).eth.upA = true ∧ (live.eth.upA = false ∧ live.eth.upB = false) := by decide

def head1 : CmdHead := ⟨1, 2, 9⟩

/-- A tenant's queue holds a command, with segments behind it. -/
def asking (t : Tenant) (form : CmdForm) (segs : List (List Byte)) : State :=
  let q := (2, 1, cmdHead form.code 9 ++ form.fields) :: segs.map fun bs => (3, 4, bs)
  { live with tenants := [(1, { t with session := some { session with queue := q } })] }

def small : XferArgs := ⟨0, 0, 1, 7, true⟩

/-- The one segment of a WRITE of one byte. -/
def piece : List Byte := segHead 2 0 1 ++ [5]

theorem test_transfers_forms :
    let r := asking runner (xferForm 5 small) []
    let w := asking runner (xferForm 4 small) [piece]
    let far := { small with offset := 16777215, n := 2 }
    (r.front head1 5 = some (cmdHead 5 9 ++ (xferForm 5 small).fields) ∧
      (xferForm 5 small).reads ((cmdHead 5 9 ++ (xferForm 5 small).fields).drop 8) = true ∧
      (xferForm 5 small).spelled 9 (cmdHead 5 9 ++ (xferForm 5 small).fields) = true) ∧
    (w.front head1 4 = some (cmdHead 4 9 ++ (xferForm 4 small).fields) ∧
      (xferForm 4 small).spelled 9 (cmdHead 4 9 ++ (xferForm 4 small).fields) = true ∧ w.segments 1 = [piece]) ∧
    xferLegal small = true ∧ (runner.range 0 0 1 = some ⟨0, 0, 0, 0, 0, 4096, true⟩) ∧
    (∀ i, i < 1 → segmentOk 2 1 i ([piece].getD i []) = true) ∧ segmentsOf 1 = 1 ∧
    segmentOk 2 1 0 (segHead 3 0 1 ++ [5]) = false ∧ segmentsOf 8193 = 2 ∧
    xferLegal far = true ∧ runner.range 0 16777215 2 = none ∧
    xferLegal { small with n := 0 } = false ∧ xferLegal { small with n := 67108864 } = true := by decide

theorem test_transfers_take : (asking runner (xferForm 5 small) []).Takes head1 true :=
  ⟨nofun, nofun, rfl, rfl, fun _ => ⟨rfl, rfl⟩⟩

/-- A transfer of one unit that waits for its answer. -/
def reading : Xfer :=
  ⟨head1, false, 0, 0, 0, 1, 7, false, 1, [0], 0, none, false, false, false, [], 0, [], 0⟩

def answer (op tag : Nat) : Buffered := ⟨0, 6, 0, 31, { request with op := op, tag := tag, vc := 2, data := [1] }⟩

def answered (x : Xfer) (b : Buffered) : State :=
  { live with tenants := [(1, { runner with xfer := some x })], routers := [(6, { Router.init with arrived := [b] })] }

theorem test_units_answered_forms :
    let s := answered reading (answer 3 0)
    (s.router 0 6).arrived.find? (fun y => y.pkt.op = 3 && y.pkt.srcid = 40) = some (answer 3 0) ∧ (answer 3 0).pkt.tenant = 1 ∧
    (answer 3 0).pkt.tag < 32768 ∧ (s.tenant 1).xfer = some reading ∧ reading.next = reading.ready ∧
    reading.waiting.find? (fun v => v % 32768 = 0) = some 0 ∧ (answer 3 0).pkt.status = 0 ∧
    (∀ y ∈ (live.router 0 6).arrived, y.pkt.op ≠ 3 ∧ y.pkt.op ≠ 4) := by decide

theorem test_transfers_end_forms :
    let wrote : Xfer := { reading with isWrite := true, waiting := [], data := [5], taken := 1 }
    let read : Xfer := { reading with waiting := [], sent := 1 }
    (wrote.written = true ∧ wrote.chk = false ∧ { wrote with bounds := true }.writeStatus ≠ .ok ∧ reading.written = false ∧ wrote.head.tenant = 1 ∧
      wrote.writeStatus = .ok) ∧
    (({ wrote with chk := true } : Xfer).chk = true) ∧ reading.waiting ≠ [] ∧
    (({ read with firstBad := some (0, 2) } : Xfer).firstBad = some (0, 2) ∧ (2 : Nat) ≠ 0) ∧
    (read.firstBad = none ∧ unitsOf read.n ≤ read.next ∧ unitsOf read.n ≤ 32 * read.sent ∧ read.chk = false) := by decide

/-- A descriptor of one flit for destination 0, and a plate on two packages. -/
def descFlit : Flit := ⟨1, leBytes 16 (2 ^ 48)⟩

def far : Binding := { plateOf 2 2 with packages := [(0, 0), (0, 1)], xout := [1] }

theorem test_scaleout_forms :
    let s : State := { ran far (runOf 1) with eth := { Eth.init with upA := true, egress := [descFlit, ⟨1, []⟩] } }
    (s.power.st ≠ .off ∧ s.eth.upA = true ∧ s.eth.egress = descFlit :: [⟨1, []⟩] ∧ (∀ f ∈ [(⟨1, []⟩ : Flit)], f.tenant = descFlit.tenant) ∧
      [(⟨1, []⟩ : Flit)].length = descFlits descFlit.data ∧ (s.tenant 1).binding = some far ∧
      far.destination (descOf descFlit.data).dest = some (0, 1)) ∧
    ([] : List Flit).length < descFlits descFlit.data ∧
    ((live.tenant 1).aperture 9 = none ∧ (live.tenant 1).aperture 1 = some ⟨1, 0, 0, 1, 0, 4096, true⟩) ∧
    ((1 : Nat) ≤ 32 ∧ (16777216 - 8192) % 256 = 0 ∧ 16777216 - 8192 + 256 * 32 ≤ 4096 * 4096) := by decide

theorem test_messages_end_forms :
    let m : InMsg := ⟨0, ⟨0, 0, 0, 1, 3, 0, 0⟩, [0], false⟩
    let s : State := { flagged { Flag.init with opened := true } program with
                       tenants := [(1, { runner with inMsgs := [m] })],
                       routers := [(6, { Router.init with arrived := [answer 4 32768] })] }
    (s.router 0 6).arrived.find? (fun y => y.pkt.op = 4 && y.pkt.srcid = 40) = some (answer 4 32768) ∧ 32768 ≤ (answer 4 32768).pkt.tag ∧
    (s.tenant 1).inMsgs.find? (fun m => m.id = (answer 4 32768).pkt.tag % 32768 / 32) = some m ∧
    m.waiting = [(answer 4 32768).pkt.tag % 32] ∧ m.failed = false ∧ (s.tenant 1).binding = some (plateOf 0 2) ∧
    (plateOf 0 2).place (24 * m.desc.tdie + m.desc.tcl) = some (0, 0) ∧ (s.cluster 0 0).flagIn 1 3 = some 3 ∧
    ((s.cluster 0 0).flag 3).opened = true := by decide

theorem test_board_halts_forms : live.power.st ≠ .off ∧ (live.tenant 1).st = .running ∧ (live.tenant 1).run = some (runOf 1) ∧
    (runOf 1).halting = none ∧ (live.tenant 2).st ≠ .running := by decide

/-- The map after First Light, with physical cluster 2 a spare of row 0. -/
def published : State :=
  { live with regs := [(regKey (dieSite 0) 0x9008, 1), (regKey (dieSite 0) 0x9040, 0x80000000), (regKey (dieSite 0) 0x90C0, 0),
                       (regKey (dieSite 0) 0x90C8, 0x11F)] }

theorem test_sparing_forms :
    (published.sparable 0 0 = true ∧ published.pstate 0 0 ≠ 2 ∧ published.pstate 0 0 ≠ 3 ∧ published.logOf 0 0 = some 0) ∧
    (published.standIn 0 0 0 = some 2 ∧ published.pstate 0 2 = 1 ∧ published.logOf 0 2 = none) ∧
    live.standIn 0 0 23 = none ∧
    (1 ∈ published.bindersOf 0 [0] ∧ (published.tenant 1).binding ≠ none ∧ (published.tenant 1).run ≠ none) ∧
    (published.rowsFailed 0 0 = false ∧ published.originRouter 0 0 = false) ∧
    ({ live with regs := [(regKey (dieSite 0) 0x90C0, 0x200)] } : State).pstate 0 0 = 2 ∧
    (published.sparing = [] ∧ published.die0.draining = false ∧ published.die1.draining = false) ∧
    ({ published with die1 := { Die.init with draining := true } } : State).die1.draining = true := by decide

/-- Two slots of 1 ms from time 0; tenant 1 owns logical cluster 0 in the second. -/
def sched2 : Sched := ⟨2, 1000000, 0, [(48, 1)], Config.sha384 []⟩

theorem test_schedule_forms :
    let t0 : Tenant := { runner with run := some { runOf 1 with phase := .boundary } }
    let s : State := { live with sched := some sched2, tenants := [(1, t0)] }
    (sched2.nslot ≠ 0 ∧ reached s.clock.sid sched2.s0 = true ∧ s.physOf 0 0 = some 0 ∧ s.physOf 0 1 = none) ∧
    (sched2.slotsSince s.clock.sid % sched2.nslot = 0 ∧ sched2.ownerOf 0 0 0 = none ∧ s.exposing 1 = false ∧ live.exposing 1 = true) ∧
    ((live.cluster 0 0).running.map fun k => ((live.cluster 0 0).ctx k).tenant) = some 1 ∧ sched2.ownerOf 1 0 0 = some 1 ∧
    (({ island with occupant := some 2 } : Cluster).occupant = some 2 ∧ (2 : Nat) ≠ 1 ∧ island.occupant = none ∧
      (runner.binding = some (plateOf 0 2))) ∧
    live.sched = none ∧ reached live.clock.sid ({ sched2 with s0 := 1 } : Sched).s0 = false := by decide

theorem test_schedule_waits : ({ live with nextSched := some sched2 } : State).nextSched = some sched2 := rfl

/-- Every map entry names physical clusters that name it back. -/
theorem test_schedule_map : ∀ d l p, live.physOf d l = some p → p < 24 ∧ ∀ m, live.physOf d m = some p → l = m := by
  have only : ∀ d l p, live.physOf d l = some p → l = 0 ∧ p = 0 := by
    intro d l p h
    have hl : l < 24 := by
      unfold State.physOf at h
      split at h
      · rename_i c
        simp only [Bool.and_eq_true, decide_eq_true_eq] at c
        exact c.1
      · cases h
    by_cases hd : d = 0
    · subst hd
      have key : ∀ l, l < 24 → ∀ p, live.physOf 0 l = some p → l = 0 ∧ p = 0 := by
        have h0 : live.physOf 0 0 = some 0 := by decide
        have hn : ∀ l, l < 24 → l ≠ 0 → live.physOf 0 l = none := by decide
        intro l hl p h
        by_cases e : l = 0
        · subst e
          rw [h0] at h
          exact ⟨rfl, (Option.some.inj h).symm⟩
        · rw [hn l hl e] at h
          cases h
      exact key l hl p h
    · exfalso
      have e : live.lmap d l = 0x1F := by
        simp only [State.lmap, State.reg, dieSite, regKey]
        simp [live, mapped, Tab.get, regKey, dieSite]
        rw [if_neg (by omega), if_neg (by omega)]
      unfold State.physOf at h
      rw [e] at h
      simp at h
  intro d l p h
  obtain ⟨rfl, rfl⟩ := only d l p h
  exact ⟨by decide, fun m hm => (only d m 0 hm).1.symm⟩

/-- First Light at a stage. -/
def booting (b : Boot) : State := { State.reset with boot := b }

theorem test_first_light_forms :
    let bad : State := { State.reset with part := { Part.init with recordOk := false } }
    let net := booting { Boot.init with stage := 1 }
    let fetch : State := { booting { Boot.init with stage := 2, want := 1 } with clock := { Clock.init with sid := nsUnits 10000000000 } }
    let test := booting { Boot.init with stage := 4 }
    (bad.boot.stage = 0 ∧ bad.pins.pkgStat ≠ 1 ∧ bad.power.st ≠ .off ∧ bad.part.recordOk = false) ∧
    (net.boot.stage = 1 ∧ net.eth.upA = false ∧ net.eth.upB = false ∧ net.pins.refEth = true) ∧
    (fetch.fetching = true ∧ fetch.elapsed fetch.boot.lastRequest fetch.boot.interval = true ∧ fetch.boot.want = 1 ∧
      fetch.imageError [] [] [] ≠ 0) ∧
    (booting { Boot.init with stage := 2 }).elapsed 0 (booting { Boot.init with stage := 2 }).boot.interval = false ∧
    State.reset.fetching = false ∧ (test.boot.stage = 4 ∧ test.pins.pkgStat ≠ 1 ∧ test.part.die1Present = true) ∧
    (placeOf Part.init.grade (clusterState [⟨0, 2, false, true, [], true⟩] 0) 0 ≠ none) ∧
    clusterState [] 0 0 = 0 ∧ ({ fetch with eth := { Eth.init with upA := true } } : State).eth.upA = true ∧
    (({ live with fw := { Firmware.init with almanacUp := true } } : State).fw.almanacUp = true ∧ live.boot.stage = 6 ∧
      live.fw.almanacUp = false) := by decide

theorem test_pins_forms :
    let off : State := { State.reset with pins := { Pins.init with resetN := false } }
    let unpowered : State := { State.reset with pins := { Pins.init with pwrgd := false } }
    let scan : State := { State.reset with tap := { ir := 3, dataOut := none, holdsOff := true } }
    (off.pins.resetN = false ∧ off.pins.pwrgd = true ∧ off.pins.thermtrip = false ∧ off.tap.holdsOff = false) ∧
    (unpowered.pins.pwrgd = false ∧ unpowered.pins.resetN = true) ∧ State.reset.pins.resetN = true ∧
    (scan.tap.holdsOff = true ∧ scan.pins.pwrgd = true ∧ scan.pins.resetN = true ∧ scan.pins.thermtrip = false ∧ scan.pins.vddAon = true ∧ scan.pins.refAon = true) := by decide

/-! Witnesses: host commands. -/

/-- A directory entry, and an image of one package that uses no cluster: PROF, empty declarations, no table, SIGN. -/
def entryOf (typ cl pkgn off len : Nat) : List Byte :=
  leBytes 2 typ ++ leBytes 2 cl ++ leBytes 4 0 ++ leBytes 4 pkgn ++ leBytes 4 off ++ leBytes 4 len ++ leBytes 4 0

def image : List Byte :=
  leBytes 4 0x4C504A46 ++ leBytes 2 1 ++ leBytes 2 6 ++ leBytes 4 16928 ++ leBytes 4 0 ++
  entryOf 1 0xFFFF 0 160 56 ++ entryOf 2 0xFFFF 1 216 0 ++ entryOf 5 0xFFFF 1 216 0 ++ entryOf 6 0xFFFF 1 216 96 ++
  entryOf 7 0xFFFF 1 312 0 ++ entryOf 9 0xFFFF 0 312 16616 ++
  (leBytes 4 1 ++ leBytes 2 16 ++ leBytes 4 1 ++ leBytes 8 0 ++ leBytes 2 1 ++ leBytes 2 1 ++ leBytes 2 20 ++ leBytes 32 0) ++
  List.replicate 96 255 ++ List.replicate 16616 0

def loader : State := { live with fw := { Firmware.init with signers := [⟨0, [], [], BitVec.allOnes 256⟩] } }

theorem image_length : image.length = 16928 := by
  simp only [image, entryOf, List.length_append, List.length_replicate, leBytes_length]

set_option maxRecDepth 3000 in
/-- An image that passes every check, where the signatures verify and the sections whose layout the spec does not give
declare nothing (notes/assumptions/2.md, 3.md). -/
theorem test_a_plate_passes (hD : Config.declCounts = fun _ => some (0, 0)) (hE : Config.ephmCounts = fun _ _ => some (0, 0))
    (hF : Config.flagSection = fun _ => some ([], [])) (hR : Config.rsaVerify = fun _ _ _ => true)
    (hS : Config.slhVerify = fun _ _ _ => true) : loader.loadReason 1 image = 0 := by
  delta State.loadReason containerReason lengthsReason Prof.linkReason Sect.lengthBad parseDecl parseEphm State.signatureReason sectReason declFor ephmFor flagReason
  delta flagsFor barriersFor looseRun looseNodes
  delta nodeOf frameOf
  delta flagsFor barriersFor declFor ephmFor
  delta parseDecl parseEphm 
  delta headerReason
  rw [image_length, hD, hE, hF, hR, hS]
  decide +kernel

/-- A tenant that has loaded the image. -/
def owner : Tenant := { runner with st := .loaded, run := none, binding := none, plate := some { image := image, digest := 0 } }

def unbound : State := { live with tenants := [(1, owner)], clusters := [] }

def placing : Job := { tenant := 1, bs := image, entries := [(0, 0)], packages := [], peers := [] }

set_option maxRecDepth 3000 in
/-- The same image on the package: it can be placed. -/
theorem test_a_plate_is_placed (hD : Config.declCounts = fun _ => some (0, 0)) (hE : Config.ephmCounts = fun _ _ => some (0, 0))
    (hF : Config.flagSection = fun _ => some ([], [])) : ∃ t, unbound.place placing 0 = .ok t := by
  have h : (unbound.place placing 0).toOption.isSome = true := by
    delta State.place State.levelFail State.usedLinks State.needsFail State.entriesFor State.runFail State.boundRun State.tolerantReason
    delta State.boundRun nodeOf looseNodes frameOf
    delta flagsFor barriersFor declFor ephmFor
    delta parseDecl parseEphm
    rw [hD, hE, hF]
    decide +kernel
  cases e : unbound.place placing 0 with
  | error x => rw [e] at h; cases h
  | ok t => exact ⟨t, rfl⟩

/-- A tenant in a state, with a session and nothing in progress. -/
def standing (st : TState) : Tenant := { runner with st := st, session := some session }

/-- Tenant 0 opened, tenant 1 in a state. -/
def hosts (st : TState) : State := { live with tenants := [(0, { Tenant.init with st := .opened, session := some session }), (1, standing st)] }

def head0 : CmdHead := ⟨0, 2, 9⟩

theorem test_operator_takes (f : Bool) (st : TState) : (hosts st).Takes head0 f := ⟨nofun, nofun, rfl, rfl, fun _ => ⟨rfl, rfl⟩⟩

theorem test_tenant_takes (f : Bool) (st : TState) (h : st ≠ .closed) : (hosts st).Takes head1 f :=
  ⟨nofun, h, rfl, rfl, fun _ => ⟨rfl, rfl⟩⟩

/-- A form's payload with tag 9 is read as that form. -/
def readsBack (f : CmdForm) : Bool :=
  let bs := cmdHead f.code 9 ++ f.fields
  fieldAt bs 0 1 = f.code && fieldAt bs 2 2 = 9 && f.reads (bs.drop 8) && f.spelled 9 bs

/-- A tenant whose queue holds a command; `asking` is the machine with it. -/
theorem asks_now (t : Tenant) (f : CmdForm) (h : readsBack f = true) : (asking t f []).Asks head1 f := by
  simp only [readsBack, Bool.and_eq_true, decide_eq_true_eq] at h
  refine ⟨cmdHead f.code 9 ++ f.fields, ?_, h.1.2, h.2⟩
  have turn : ((asking t f []).tenant head1.tenant).turn =
      some { session with queue := [(2, 1, cmdHead f.code 9 ++ f.fields)] } := by
    simp [asking, State.tenant, Tab.get, head1, Tenant.turn, Tenant.inForce]
  rw [State.front, turn]
  simp [head1, h.1.1.1, h.1.1.2]

/-- What OPEN asks for: an aperture of logical cluster 0 that another tenant's meets, one in no cluster, and one that fits. -/
def opening (t : Nat) (es : List ApEntry) : OpenArgs := ⟨t, false, 5, 0, 256 - 1, 255, 256, 64, es⟩

/-- Every command can stand at the front of a queue, as the statements ask for it. -/
theorem test_forms_read_back :
    ([helloForm 4, helloForm 1000, helloForm 3, bareForm 0x0C false, budgetForm 7 false, budgetForm 7 true, attestForm (List.replicate 32 0),
      openForm (opening 2 [⟨0, 0, 0, 0, 0, 1⟩]), openForm { opening 2 [] with lwin := 257 }, openForm { opening 2 [] with keyonly := true },
      closeForm 1, plateForm 0 0 16, bindForm [(0, 0)] [(0, 1)], bareForm 0x09 true, launchForm 77, stopForm 0 0, stopForm 2 0,
      patchForm 3 [⟨0, 63, 5⟩], limitForm 65535, stateForm 3, sliceForm 2 0 5 3, topologyForm 0 0 0 16, topologyForm 1 0 0 16,
      topologyForm 2 0 0 16, epochForm 3].all readsBack) = true := by decide

/-- A QUERY with a byte that is not zero behind it, and an ATTEST cut short. -/
theorem test_misspelled_commands :
    let q := asking runner { bareForm 0x0C false with fields := [1] } []
    let a := asking runner { attestForm [] with fields := List.replicate 31 0 } []
    (q.front head1 0x0C = some (cmdHead 0x0C 9 ++ [1]) ∧ (bareForm 0x0C false).spelled 9 (cmdHead 0x0C 9 ++ [1]) = false) ∧
    (a.front head1 0x0F = some (cmdHead 0x0F 9 ++ List.replicate 31 0) ∧
      (attestForm (List.replicate 31 0)).spelled 9 (cmdHead 0x0F 9 ++ List.replicate 31 0) = false) ∧
    (live.front head1 0x0C = none ∧ live.front head1 0x0F = none) := by decide

/-- A HELLO waits in a session of its own, and the session in force has nothing left. -/
theorem test_session_turns :
    let t : Tenant := { runner with session := some session, opening := some { session with id := 8, queue := [(1, 1, hello)] } }
    t.turn = t.opening ∧ t.inForce = false ∧ ({ t with opening := none } : Tenant).turn = some session ∧
    ({ t with opening := none } : Tenant).inForce = true := by decide

theorem test_tenant_commands_forms :
    let v := (hosts .loaded).tenant 1
    (v.session = some session ∧ 4 ≤ 4 ∧ 4 ≤ 1000 ∧ 1000 ≤ 1000 ∧ session.queue = [] ∧ 8 ≠ session.id ∧ 8 ≠ 0 ∧ 3 < 4 ∧ 1000 < 1001) ∧
    ((List.replicate 32 (0 : Byte)).length = 32 ∧ ([] : List Byte).length ≠ 32) ∧
    (openLegal (opening 2 []) = true ∧ openLegal { opening 2 [] with lwin := 257 } = false ∧ head1.tenant ≠ 0 ∧ head0.tenant = 0) ∧
    (((hosts .bound).tenant 1).st = .bound ∧ ((hosts .bound).tenant 2).st = .closed) ∧
    ((hosts .loaded).judgeEntries 2 [] = .ok ∧ (hosts .loaded).judgeEntries 2 [⟨0, 0, 0, 0, 0, 1, true⟩] = .busy ∧
      (hosts .loaded).judgeEntries 2 [⟨0, 0, 5, 0, 0, 1, true⟩] = .bounds) ∧
    (((hosts .loaded).tenant 2).xfer = none ∧ ((hosts .loaded).tenant 2).stopping = none ∧ v.st ≠ .closed ∧ 5 ≠ v.keyid) ∧
    (⟨0, 0, 0, 0, 0, 4096, true⟩ ∈ v.apertures ∧ (hosts .loaded).physOf 0 0 = some 0) ∧
    ((State.reset.tenant 1).st = .closed ∧ (({ hosts .loaded with power := { Power.init with st := .retained } } : State).power.st = .retained)) := by
  refine ⟨by decide, ⟨List.length_replicate, by decide⟩, by decide, by decide, by decide, by decide, by decide, by decide⟩

theorem test_plate_commands_forms :
    let v := (hosts .loaded).tenant 1
    let b := plateOf 0 2
    (v.range 0 0 67108864 = none ∧ v.range 0 0 16 ≠ none ∧
      (hosts .loaded).loadReason 1 (List.replicate 16 0) ≠ 0) ∧
    (bindLegal [(0, 0)] [] = true ∧ (hosts .opened).anyArmed = false) ∧
    (∃ st why, (hosts .loaded).place { placing with packages := [(0, 0), (0, 0)] } 0 = .error (st, why)) ∧
    ((hosts .bound).slicesOn b = true ∧ (hosts .bound).slicesOn { b with slices := [(0, 3)] } = false ∧ ((hosts .bound).tenant 1).binding = some b) ∧
    ((hosts .armed).unlocked b = false ∧ (hosts .armed).unlocked (plateOf 1 2) = true ∧
      laterThan (nsUnits 1206) (0 + nsUnits (0 + 1205)) = true ∧ laterThan (nsUnits 1205) (0 + nsUnits (0 + 1205)) = false ∧
      (hosts .armed).launchFits 1 b (nsUnits 1206) = true ∧
      ({ hosts .armed with sched := some sched2 } : State).launchFits 1 { b with rotating := true } (nsUnits 1206) = false) ∧
    ((0 : Nat) + 1 < b.exps ∧ b.exps ≤ 1 + 1 ∧ (runOf 1).halting = none ∧ (hosts .running).lastIssued 1 b = false) ∧
    (b.place 0 ≠ none ∧ b.place 47 = none ∧ 1 ≤ 1 ∧ (0 : Nat) ≤ (runOf 1).arrived ∧ (runOf 1).arrived < 1) :=
  ⟨by decide, by decide, ⟨_, _, rfl⟩, by decide, by decide, by decide, by decide⟩

/-- What the loader meets at the port of the slice it reads, and what CLOSE waits for. -/
theorem test_loader_reads_forms :
    let on : Slice := { Slice.init with st := .on }
    let s := sliced on
    let busy : State := { s with clusters := [(0, { island with s0 := on, ports := [⟨0, false, 1, 1, 1⟩] })] }
    let bad : Cluster := { island with s0 := { on with ue := [1] } }
    let writes : State := { live with clusters := [(0, { island with s0 := on, ports := [⟨0, true, 1, 1, 1⟩] })] }
    (((live.cluster 0 0).slice 0).darkFor 40 1 = true ∧ ((s.cluster 0 0).slice 0).darkFor 40 1 = false) ∧
    (busy.portIdle 0 0 0 false = false ∧ s.portIdle 0 0 0 false = true) ∧
    (bad.uesIn 0 16 ≠ [] ∧ (s.cluster 0 0).uesIn 0 16 = [] ∧ (live.cluster 0 0).uesIn 0 16 = []) ∧
    (s.wipeReady 1 = true ∧ writes.wipeReady 1 = false) ∧
    (({ runner with apertures := [⟨0, 0, 0, 0, 0, 16384, true⟩] } : Tenant).holdsCluster 0 0 = true ∧ runner.holdsCluster 0 5 = false) := by
  decide

theorem test_launch_lead_forms :
    let b := plateOf 0 2
    let s := hosts .armed
    let l : State := { idleFor { Power.init with st := .retained } with tenants := [(1, { runner with run := some (Run.start 0) })] }
    let far : State := { l with tenants := [(1, { runner with run := some (Run.start (nsUnits 2000000)) })] }
    ((s.tenant head1.tenant).st = .armed ∧ (s.tenant head1.tenant).binding = some b ∧ s.unlocked b = false ∧
      nsUnits 1205 = s.clock.sid + nsUnits (s.power.st.exitNs + 1205) ∧
      ¬(nsUnits 1206 = s.clock.sid + nsUnits (s.power.st.exitNs + 1205) ∨
        2 ^ 63 ≤ (nsUnits 1206 - (s.clock.sid + nsUnits (s.power.st.exitNs + 1205))).toNat) ∧
      s.launchFits head1.tenant b (nsUnits 1206) = true) ∧
    (l.power.st ≠ .off ∧ ¬(l.power.st = .active ∧ l.power.moving = false) ∧ ¬(l.power.moving = true ∧ l.power.target = .active) ∧
      (l.tenant 1).run = some (Run.start 0) ∧ (l.clock.sid - (0 - nsUnits (l.power.st.exitNs + 1205))).toNat < 2 ^ 63 ∧
      2 ^ 63 ≤ (far.clock.sid - (nsUnits 2000000 - nsUnits (far.power.st.exitNs + 1205))).toNat) := by decide

/-- R57: at 1,205 ns the launch is late and the tenant stays Armed; one nanosecond later it runs. -/
theorem test_launch_lead :
    let s := fun T => asking { runner with st := .armed } (launchForm T) []
    ∃ t u, exec (.launchAt head1 (nsUnits 1205)) (s (nsUnits 1205)) = .next t ∧ (t.tenant 1).st = .armed ∧
      exec (.launchAt head1 (nsUnits 1206)) (s (nsUnits 1206)) = .next u ∧ (u.tenant 1).st = .running :=
  ⟨_, _, rfl, by decide, rfl, by decide⟩

theorem test_operator_commands_forms :
    let s := hosts .loaded
    (65535 < 65536 ∧ 2 ≤ 2 ∧ s.power.st ≠ .dark ∧ ({ s with power := { Power.init with st := .dark } } : State).power.st = .dark ∧
      (hosts .armed).anyArmed = true ∧ s.anyArmed = false ∧ topologyLegal 255 0 16 = true) ∧
    (s.physOf 0 23 = none ∧ s.physOf 0 0 = some 0 ∧ s.declared 0 0 3 = false ∧ SliceTarget.ofCode 2 ≠ none ∧
      ({ s with tenants := [(1, { standing .bound with binding := some { plateOf 0 2 with slices := [(0, 3)] } })] } : State).declared 0 0 3 = true) ∧
    ((s.tenant 0).range 0 0 16 = none ∧ ({ Tenant.init with apertures := [⟨0, 0, 0, 0, 0, 1, true⟩] } : Tenant).range 0 0 16 ≠ none) ∧
    (parseSchedule [] = none ∧ s.leftOut { sched2 with owner := [] } = false ∧ s.leftOut { sched2 with owner := [(0, 1)] } = false ∧
      reached (nsUnits 1000000) (s.clock.sid + nsUnits 1000000) = true ∧ reached (nsUnits 999999) (s.clock.sid + nsUnits 1000000) = false) ∧
    (bitSet 3 1 = true ∧ s.flipping 1 = false ∧
      ({ s with die1 := { Die.init with draining := true } } : State).flipping 1 = true ∧ boardRecordOk [] = true) := by decide

/-- A Meridian image of one byte whose keys the part knows, where the signatures verify. -/
def firmware : List Byte :=
  leBytes 4 0x4E494D4F ++ leBytes 2 1 ++ leBytes 6 0 ++ leBytes 4 1 ++ leBytes 48 0 ++ List.replicate 16609 0

theorem firmware_length : firmware.length = 16673 := by
  simp only [firmware, List.length_append, List.length_replicate, leBytes_length]

theorem test_firmware_passes (hR : Config.rsaVerify = fun _ _ _ => true) (hS : Config.slhVerify = fun _ _ _ => true) :
    State.imageError { State.reset with part := { Part.init with vendor := [(0, Config.sha384 [])] } } [] [] firmware = 0 := by
  have h : (parseImage firmware).legal 1 = true := by
    delta Image.legal parseImage
    rw [firmware_length]
    decide +kernel
  have k : (parseImage firmware).vkey = 0 := by decide +kernel
  have v : (parseImage firmware).svn = 0 := by decide +kernel
  simp [State.imageError, State.vendorOk, State.reset, State.cold, Boot.init, Part.init, Tab.get, h, k, v, hR, hS]

/-- An operator record the owner has signed. -/
def operatorRecord : OperatorRecord :=
  ⟨[], [], [], [], [], [], 255, 0x4B0E, [], [], 0, none, none⟩

theorem test_operator_record_passes (hR : Config.rsaVerify = fun _ _ _ => true) (hS : Config.slhVerify = fun _ _ _ => true)
    (k : BitVec 256) (hO : Config.oaepUnwrap 0 [] = some k) :
    State.operatorOk { State.reset with part := { Part.init with owner := some (Config.sha384 []) } } operatorRecord = true := by
  simp [State.operatorOk, operatorSigned, operatorRecord, Part.init, hR, hS, hO]

/-! Results the spec's rules give. -/

/-- R118, R113: 1 + 1, the largest number added to itself, and 1 − 1. -/
theorem test_fadd : (fadd 0x3F800000 0x3F800000).1 = 0x40000000 ∧ (fadd 0x7F7FFFFF 0x7F7FFFFF).1 = 0x7F800000 ∧
    posZero (fadd 0x3F800000 0xBF800000).1 = 0 := by decide +kernel

/-- R220: on one beat CLR, then the CNTs together, then SET. -/
theorem test_flag_order :
    (({ Flag.init with c := 3, th := 5 } : Flag).apply [.set, .cnt, .clr, .cnt]).c = 2 ∧
    (({ Flag.init with c := 3, th := 5 } : Flag).apply [.cnt, .cnt]).s = true ∧
    (({ Flag.init with s := true } : Flag).apply [.clr]).s = false := by decide

/-- R171, R187: a FILL that issues has its first block due on its beat, and lands there. -/
theorem test_fill_lands :
    let s : State := { live with clusters := [(0, { island with ctxs := [(0, { program with params := [(1, 0x11223344), (4, 0x80000)] })] })],
                                 pending := [.fill here ⟨1, 4, 0⟩] }
    ∃ t, step s = .next t ∧ t.pending = [] ∧ (t.ctxAt here).commits.map (·.1) = [0] ∧
      ((t.land here ⟨1, 0⟩ (.spad 0x80000 [0x44, 0x33])).cluster 0 0).read 0x80000 3 = [0x44, 0x33, 0] :=
  ⟨_, rfl, by decide +kernel⟩

/-- R84: a FILL outside the tenant's apertures halts the plate on its beat with BOUNDS. -/
theorem test_fill_halts :
    ∃ t, exec (.fill here ⟨6, 5, 0⟩) live = .next t ∧ (t.tenant 1).st = .halted ∧ (t.tenant 1).lastStatus = .bounds ∧
      Tab.get 0 (t.flt 0).cnt 0x10 = 1 := ⟨_, rfl, by decide +kernel⟩

/-- R159, R160: `addi x5, x0, 1` and `addi x0, x0, 1`. -/
theorem test_addi :
    ∃ t, exec (.scalarInstruction here 0x00100293 0x00100013) live = .next t ∧ (t.ctxAt here).commits = [(0, .xreg 5 1)] :=
  ⟨_, rfl, by decide +kernel⟩

/-- R41: a region that nothing holds begins its next beat. -/
theorem test_region_beat : ∃ t, exec (.regionBeatBegin 0 none) live = .next t ∧ (t.region 0).beat = 2 ∧ (t.region 1).beat = 1 :=
  ⟨_, rfl, by decide +kernel⟩

/-- R30: from physical cluster 0 to 7, one row and one column away, and to the same position of the other die. -/
theorem test_distance : oneWay 0 0 0 7 = 8 ∧ oneWay 0 0 1 0 = 28 := by decide

/-- R417, R299: a run whose exposures have ended. -/
theorem test_run_completes :
    ∃ t, exec (.runComplete 1) (ran (plateOf 0 2) (endedRun 1 200)) = .next t ∧ (t.tenant 1).st = .halted ∧
      (t.tenant 1).lastStatus = .ok ∧ (t.tenant 1).record.length = 32 := ⟨_, rfl, by decide +kernel⟩

/-- R25, R413: physical cluster 0 fails and the spare of its row takes its logical number. -/
theorem test_spare_stands_in :
    ∃ t, exec (.sparingOccult 0 0 1) published = .next t ∧ t.physOf 0 0 = some 2 ∧ t.pstate 0 0 = 3 ∧ t.topoGen 0 = 2 :=
  ⟨_, rfl, by decide +kernel⟩

/-- R440: IDCODE of a T40 of stepping A1. -/
theorem test_idcode : ∃ t, exec .idcode State.reset = .next t ∧ t.tap.dataOut = some 0x100405CB := ⟨_, rfl, by decide +kernel⟩

/-- R10: a read-as-cleared counter answers its value once. -/
theorem test_counter_clears :
    ∃ t, exec (.readClear keeper (live.regAddr 0 0x1F 0x6140) 4) { live with flt0 := { Flt.init with cnt := [(0x10, 7)] } } = .next t ∧
      t.reply = { status := .ok, data := [7] } ∧ Tab.get 0 t.flt0.cnt 0x10 = 0 := ⟨_, rfl, by decide +kernel⟩

/-- R266, R267: the loss of a die's reference retrains its UP links. -/
theorem test_reference_lost :
    ∃ t, exec (.refUlbLoss 0) (linked { Link.init with st := .up }) = .next t ∧ (t.link 0 0).st = .retrain ∧ t.pins.refUlb0 = false :=
  ⟨_, rfl, by decide +kernel⟩

/-- R279, R301: a HELLO with an ACKT out of range answers UNSUPPORTED. -/
theorem test_hello_unsupported :
    ∃ t p, exec (.hello head1 7 1001) (asking runner (helloForm 1001) []) = .next t ∧
      (t.tenant 1).session.bind (·.unacked.getLast?) = some p ∧
      p.payload = rspOf head1 .unsupported ∧ rspOf head1 .unsupported = [9, 0, 8, 0, 0, 0, 0, 0, 0, 0, 0, 0, 0, 0, 0, 0] :=
  ⟨_, _, rfl, rfl, rfl, by decide⟩

end Sys2Proof.Tests
end

section
/-!
PROOFS. Register accesses: what a fault record leaves alone, the addresses of control space (R7, R8), and how a register
write ends (R10, R11).
-/

namespace Sys2Proof.Machine

/-! Fault records (R405): a record changes the fault block of its die and what came on the beat in progress. -/

/-- Nothing but the fault blocks and the events of the beat in progress differs. -/
def State.FaultFrame (s t : State) : Prop := t = { s with recent := t.recent, flt0 := t.flt0, flt1 := t.flt1 }

theorem State.FaultFrame.trans {s t u : State} (h : s.FaultFrame t) (k : t.FaultFrame u) : s.FaultFrame u := by
  unfold State.FaultFrame at *
  rw [k, h]

theorem State.FaultFrame.clusters {s t : State} (h : s.FaultFrame t) : t.clusters = s.clusters := by rw [h]
theorem State.FaultFrame.routers {s t : State} (h : s.FaultFrame t) : t.routers = s.routers := by rw [h]
theorem State.FaultFrame.sel {s t : State} (h : s.FaultFrame t) : t.sel = s.sel := by rw [h]
theorem State.FaultFrame.regs {s t : State} (h : s.FaultFrame t) : t.regs = s.regs := by rw [h]

theorem State.note_faultFrame (s : State) (site off : Nat) (before x : Word) (join : Word → Word → Word) :
    s.FaultFrame (s.note site off before x join) := rfl

theorem State.noteCount_faultFrame (s : State) (site off : Nat) (before : Word) (n : Nat) :
    s.FaultFrame (s.noteCount site off before n) := rfl

theorem State.setFlt_faultFrame (s : State) (die : Nat) (f : Flt) : s.FaultFrame (s.setFlt die f) := by
  unfold State.setFlt
  split <;> rfl

theorem State.record_faultFrame (s : State) (die cls cause : Nat) (tenant : Option Nat) (phys beat : Nat) (detail : DWord)
    (halts : Bool) : s.FaultFrame (s.record die cls cause tenant phys beat detail halts) := by
  have counted := (s.noteCount_faultFrame (dieSite die) (0x6100 + 4 * cause) (Tab.get 0 (s.flt die).cnt cause) 1).trans
    (State.note_faultFrame _ (dieSite die) 0x6004 (BitVec.ofNat 32 (s.flt die).worst) (BitVec.ofNat 32 cls) wordMax)
  unfold State.record
  dsimp only
  split
  · exact counted.trans (State.setFlt_faultFrame ..)
  · refine State.FaultFrame.trans ?_ (State.setFlt_faultFrame ..)
    split
    · exact counted.trans (State.noteCount_faultFrame ..)
    · exact counted

/-- A record is one more occurrence of its cause in the counters of its die (R408). -/
theorem State.record_cnt (s : State) (die cls cause : Nat) (tenant : Option Nat) (phys beat : Nat) (detail : DWord)
    (halts : Bool) : Tab.get 0 ((s.record die cls cause tenant phys beat detail halts).flt die).cnt cause =
      satAdd (Tab.get 0 (s.flt die).cnt cause) 1 := by
  unfold State.record
  dsimp only
  split <;> simp [Tab.get_modify]

theorem State.authCount_faultFrame (s : State) (a : Agent) (die phys addr : Nat) :
    s.FaultFrame (s.authCount a die phys addr) := State.record_faultFrame ..

theorem State.authCount_cnt (s : State) (a : Agent) (die phys addr : Nat) :
    Tab.get 0 ((s.authCount a die phys addr).flt die).cnt 0x16 = satAdd (Tab.get 0 (s.flt die).cnt 0x16) 1 :=
  State.record_cnt ..

/-- An answer after a record: nothing else of the package is touched. -/
theorem State.FaultFrame.done_answer {s t : State} (h : s.FaultFrame t) (st : Status) (ws : List Word) :
    done s (t.answer st ws) = .next (t.answer st ws) :=
  done_eq _ _ (by rw [h]; rfl) (by rw [h]; rfl)

/-! Addresses of control space (R7): what a register's address names. -/

section
variable (s : State) {die cl off : Nat}

theorem State.addrSlot_regAddr (hd : die < 2) (hc : cl < 32) (ho : off < 65536) (hs : s.slot < 16) :
    addrSlot (s.regAddr die cl off) = s.slot := by
  unfold addrSlot State.regAddr; omega

theorem State.addrDie_regAddr (hd : die < 2) (hc : cl < 32) (ho : off < 65536) :
    addrDie (s.regAddr die cl off) = die := by
  unfold addrDie State.regAddr; omega

theorem State.addrCluster_regAddr (hc : cl < 32) (ho : off < 65536) : addrCluster (s.regAddr die cl off) = cl := by
  unfold addrCluster State.regAddr; omega

theorem State.addrSpace_regAddr (ho : off < 65536) : addrSpace (s.regAddr die cl off) = 2 := by
  unfold addrSpace State.regAddr; omega

theorem State.addrOff_regAddr (ho : off < 65536) : addrOff (s.regAddr die cl off) = off := by
  unfold addrOff State.regAddr; omega

end

/-- A place in the register map: a word of a block of one of the 24 logical clusters, or of the die block 0x1F (R7, R9). -/
def RegPlace (cl off : Nat) : Prop := (cl < 24 ∨ cl = 0x1F) ∧ off % 4 = 0 ∧ off < 65536

/-- R8 lets an access of one word to such a place through. -/
theorem State.badAccess_regAddr (s : State) (die : Nat) {cl off : Nat} (h : RegPlace cl off) :
    badAccess (s.regAddr die cl off) 4 = false := by
  obtain ⟨hc, ha, ho⟩ := h
  have aligned : s.regAddr die cl off % 4 = 0 := by unfold State.regAddr; omega
  simp [badAccess, State.addrSpace_regAddr s ho, State.addrCluster_regAddr s (cl := cl) (by omega) ho, aligned]
  omega

/-- An access to the address of a register goes to that register. -/
theorem State.access_regAddr (s : State) (a : Agent) (f : State → Nat → Nat → Nat → State) {die cl off : Nat} (hd : die < 2)
    (hs : s.slot < 16) (h : RegPlace cl off) (on : s.power.st ≠ .off) :
    s.access a (s.regAddr die cl off) 4 f = f s die cl off := by
  have ⟨hc, _, ho⟩ := h
  have hc : cl < 32 := by omega
  simp [State.access, on, s.badAccess_regAddr die h, s.addrSlot_regAddr hd hc ho hs, s.addrSpace_regAddr ho,
    s.addrDie_regAddr hd hc ho, s.addrCluster_regAddr hc ho, s.addrOff_regAddr ho]

theorem State.access_off (s : State) (a : Agent) (addr len : Nat) (f : State → Nat → Nat → Nat → State)
    (off : s.power.st = .off) : s.access a addr len f = s := by
  simp [State.access, off]

theorem State.access_bad (s : State) (a : Agent) (addr len : Nat) (f : State → Nat → Nat → Nat → State)
    (on : s.power.st ≠ .off) (bad : badAccess addr len = true) : s.access a addr len f = s.answer .bounds [] := by
  simp [State.access, on, bad]

/-- R37: a slot that the board record lists and no bundle reaches. -/
theorem State.access_unreachable (s : State) (a : Agent) (addr len : Nat) (f : State → Nat → Nat → Nat → State) (b : Board)
    (on : s.power.st ≠ .off) (good : badAccess addr len = false) (far : addrSlot addr ≠ s.slot) (hb : s.board = some b)
    (listed : addrSlot addr ∈ b.slots) (cut : s.homeLink 0 (addrSlot addr) = none) :
    s.access a addr len f = s.unreachable a addr := by
  simp [State.access, on, good, far, hb, listed, cut]

/-! Reads and writes. -/

theorem State.regWrite_off (s : State) (a : Agent) (die cl off : Nat) (v : Word) (h : s.power.st = .off) :
    s.regWrite a die cl off v = s := by
  simp [State.regWrite, h]

theorem State.regRead_off (s : State) (a : Agent) (die cl off : Nat) (h : s.power.st = .off) :
    s.regRead a die cl off = s := by
  simp [State.regRead, h]

/-- REGISTER_WRITE of one word at a register's address. -/
theorem exec_registerWrite_regAddr (s : State) (a : Agent) (v : Word) {die cl off : Nat} (hd : die < 2) (hs : s.slot < 16)
    (h : RegPlace cl off) :
    exec (.registerWrite a (s.regAddr die cl off) 4 (v, [])) s = done s (s.regWrite a die cl off v) := by
  show done s (s.access a _ 4 _) = _
  by_cases on : s.power.st = .off
  · rw [s.access_off _ _ _ _ on, s.regWrite_off _ _ _ _ _ on]
  · rw [s.access_regAddr a _ hd hs h on]; rfl

/-- READ_CLEAR at a register's address. -/
theorem exec_readClear_regAddr (s : State) (a : Agent) {die cl off : Nat} (hd : die < 2) (hs : s.slot < 16)
    (h : RegPlace cl off) : exec (.readClear a (s.regAddr die cl off) 4) s = done s (s.regRead a die cl off) := by
  show done s (s.access a _ 4 _) = _
  by_cases on : s.power.st = .off
  · rw [s.access_off _ _ _ _ on, s.regRead_off _ _ _ _ on]
  · rw [s.access_regAddr a _ hd hs h on]

/-- How a register write ends: its status is answered, and AUTH is counted first (R11). -/
def State.endWrite (a : Agent) (die phys addr : Nat) (r : State × Status) : State :=
  (if r.2 = .auth then r.1.authCount a die phys addr else r.1).answer r.2 []

theorem State.endWrite_of_ne_auth (a : Agent) (die phys addr : Nat) (t : State) {st : Status} (h : st ≠ .auth) :
    State.endWrite a die phys addr (t, st) = t.answer st [] := by
  simp [State.endWrite, h]

theorem State.endWrite_auth (a : Agent) (die phys addr : Nat) (t : State) :
    State.endWrite a die phys addr (t, .auth) = (t.authCount a die phys addr).answer .auth [] := rfl

/-- A write in the die block. -/
theorem State.regWrite_die (s : State) (a : Agent) (die off : Nat) (v : Word) (on : s.power.st ≠ .off) :
    s.regWrite a die 0x1F off v = State.endWrite a die 0x1F (s.dieAddr die off) (s.writeDie a die off v) := by
  simp only [State.regWrite, on, if_false, if_true]
  rfl

theorem State.physOf_lt {s : State} {die cl p : Nat} (h : s.physOf die cl = some p) : cl < 24 := by
  unfold State.physOf at h
  split at h
  next c => simp only [Bool.and_eq_true, decide_eq_true_eq] at c; exact c.1
  next => cases h

/-- A block of a logical cluster that stands on a cluster neither failed nor occulted answers (R26, R212). -/
theorem State.blockOf_ok {s : State} {die cl p : Nat} (core : Bool) (hp : s.physOf die cl = some p) (h2 : s.pstate die p ≠ 2)
    (h3 : s.pstate die p ≠ 3) : s.blockOf die cl core = (.ok, p) := by
  simp [State.blockOf, hp, h2, h3]

/-- A write in a cluster, but of SNET_FOP at 0x702C. -/
theorem State.regWrite_cluster {s : State} (a : Agent) {die cl p : Nat} {off : Nat} (v : Word) (on : s.power.st ≠ .off)
    (hp : s.physOf die cl = some p) (h2 : s.pstate die p ≠ 2) (h3 : s.pstate die p ≠ 3) (fop : off ≠ 0x702C) :
    s.regWrite a die cl off v = State.endWrite a die p (s.regAddr die cl off) (s.writeCluster a die p off v) := by
  have notDie : cl ≠ 0x1F := by have := State.physOf_lt hp; omega
  simp only [State.regWrite, on, notDie, fop, if_false, State.blockOf_ok _ hp h2 h3]
  rfl

/-- The row of SPAD_PWR is the write of that register. -/
theorem exec_spadPwrWrite_eq (s : State) (a : Agent) (die cl n : Nat) (v : Word) (hc : cl < 24) (hn : n < 4) :
    exec (.spadPwrWrite a die cl n v) s = done s (s.regWrite a die cl (0x5010 + 4 * n) v) := by
  have notDie : cl ≠ 0x1F := by omega
  have fop : 0x5010 + 4 * n ≠ 0x702C := by omega
  have block : coreBlock (0x5010 + 4 * n) = true := by simp [coreBlock]; omega
  have slice : ∀ p, s.writeCluster a die p (0x5010 + 4 * n) v = s.writeSpadPwr a die p n v := by
    intro p
    have b : (0x5010 + 4 * n) / 4096 = 5 := by omega
    have o : (0x5010 + 4 * n) % 4096 = 0x10 + 4 * n := by omega
    have i : slotIn (0x10 + 4 * n) 0x010 4 4 = some n := by simp [slotIn]; omega
    have notScrub : 0x10 + 4 * n ≠ 8 := by omega
    simp only [State.writeCluster, b, o, State.writeSpad, notScrub, if_false, i]
  simp only [State.regWrite, notDie, fop, if_false, block, slice]
  rfl

end Sys2Proof.Machine
end

section
/-!
PROOFS. O45: the row of a register is the access to its address.
-/

namespace Sys2Proof.Machine

/-- The rows that write one register, with the registers they write. -/
theorem exec_writeRow (a : Agent) (die cluster k : Nat) (v : Word) (s : State) (c : Instr) (cl off : Nat)
    (hc : cluster < 24)
    (h : (c, cl, off) ∈ [(.bnetEwdataHiWrite a die cluster v, cluster, 0x6010), (.bnetRtdataWrite a die cluster v, cluster, 0x6018),
        (.seqWinWrite a die cluster .lwin v, cluster, 0x0010), (.seqWinWrite a die cluster .dwin v, cluster, 0x0014),
        (.spadPwrWrite a die cluster (k % 4) v, cluster, 0x5010 + 4 * (k % 4)), (.tenApLocWrite a die v, 0x1F, 0x5014),
        (.tenApSizeWrite a die v, 0x1F, 0x5018), (.clkGovWrite a die v, 0x1F, 0x000C)]) :
    RegPlace cl off ∧ exec c s = done s (s.regWrite a die cl off v) := by
  simp only [List.mem_cons, Prod.mk.injEq, List.not_mem_nil, or_false] at h
  rcases h with ⟨rfl, rfl, rfl⟩ | ⟨rfl, rfl, rfl⟩ | ⟨rfl, rfl, rfl⟩ | ⟨rfl, rfl, rfl⟩ | ⟨rfl, rfl, rfl⟩ | ⟨rfl, rfl, rfl⟩ |
    ⟨rfl, rfl, rfl⟩ | ⟨rfl, rfl, rfl⟩
  -- SPAD_PWR, whose row judges the write itself.
  case inr.inr.inr.inr.inl =>
    exact ⟨⟨.inl hc, by omega, by omega⟩, exec_spadPwrWrite_eq s a die cl _ v hc (Nat.mod_lt k (by decide))⟩
  all_goals exact ⟨⟨by omega, by decide, by decide⟩, rfl⟩

/-- The rows that read one register, with the registers they read. -/
theorem exec_readRow (a : Agent) (die cluster k : Nat) (s : State) (c : Instr) (cl off : Nat)
    (hc : cluster < 24) (hk : k < 24)
    (h : (c, cl, off) ∈ [(.timeSidLoRead a die, 0x1F, 0x8000), (.timeTBeatLoRead a die, 0x1F, 0x802C),
        (.mxaColsLoRead a die cluster (k % 2), cluster, 0x100C + 0x1000 * (k % 2)),
        (.bnetEwdataLoRead a die cluster, cluster, 0x600C), (.bnetSflitLoRead a die cluster, cluster, 0x6030),
        (.lnkPserLoRead a die k, 0x1F, 0x2010 + 256 * k), (.tenObsS0LoRead a die, 0x1F, 0x5028),
        (.pwrEnergyLoRead a die, 0x1F, 0x1018), (.kprMdataRead a die, 0x1F, 0x7020), (.fltRecRead a die, 0x1F, 0x6020),
        (.fltTRunRead a die, 0x1F, 0x6300)]) :
    RegPlace cl off ∧ exec c s = done s (s.regRead a die cl off) := by
  simp only [List.mem_cons, Prod.mk.injEq, List.not_mem_nil, or_false] at h
  rcases h with ⟨rfl, rfl, rfl⟩ | ⟨rfl, rfl, rfl⟩ | ⟨rfl, rfl, rfl⟩ | ⟨rfl, rfl, rfl⟩ | ⟨rfl, rfl, rfl⟩ | ⟨rfl, rfl, rfl⟩ |
    ⟨rfl, rfl, rfl⟩ | ⟨rfl, rfl, rfl⟩ | ⟨rfl, rfl, rfl⟩ | ⟨rfl, rfl, rfl⟩ | ⟨rfl, rfl, rfl⟩
  -- MXA_COLS_LO and LNK_PSER_LO, whose rows reduce the number of the array and of the link.
  case inr.inr.inl =>
    refine ⟨⟨.inl hc, by omega, by omega⟩, ?_⟩
    show done s (s.regRead a die cl (0x100C + 0x1000 * (k % 2 % 2))) = _
    rw [Nat.mod_mod]
  case inr.inr.inr.inr.inr.inl =>
    refine ⟨⟨.inr rfl, by omega, by omega⟩, ?_⟩
    show done s (s.regRead a die 0x1F (0x2010 + 256 * (k % 24))) = _
    rw [Nat.mod_eq_of_lt hk]
  all_goals exact ⟨⟨by omega, by decide, by decide⟩, rfl⟩

theorem State.selOf_setSel (s : State) (a : Agent) (site off : Nat) (v : Word) :
    (s.setSel a site off v).selOf a site off = v := Tab.get_set_self ..

/-- A write of the tenant selector of the TIME block. -/
theorem State.regWrite_timeTsel (s : State) (a : Agent) (die : Nat) (v : Word) (on : s.power.st ≠ .off) :
    s.regWrite a die 0x1F 0x801C v = (s.setSel a (dieSite die) 0x801C (v &&& 0xFF)).answer .ok [] := by
  rw [s.regWrite_die a die _ v on]
  exact State.endWrite_of_ne_auth a die 0x1F _ _ (by decide)

/-- The state in which that selector holds the low byte of a word and the last write was answered OK. -/
def State.TselSet (s t : State) (a : Agent) (die : Nat) (w : Word) : Prop :=
  t = { s with sel := t.sel, reply := { status := .ok, data := [] } } ∧ t.selOf a (dieSite die) 0x801C = w &&& 0xFF

theorem State.TselSet.write {s t : State} {a : Agent} {die : Nat} {w : Word} (h : s.TselSet t a die w)
    (on : s.power.st ≠ .off) (v : Word) : s.TselSet (t.regWrite a die 0x1F 0x801C v) a die v := by
  have on' : t.power.st ≠ .off := by rw [h.1]; exact on
  rw [t.regWrite_timeTsel a die v on']
  exact ⟨by rw [h.1]; rfl, State.selOf_setSel ..⟩

/-- The further words of a burst leave the selector with the last of them (R214). -/
theorem State.TselSet.burst {s : State} {a : Agent} {die : Nat} (on : s.power.st ≠ .off) (more : List Word) :
    ∀ {t : State} {w : Word}, s.TselSet t a die w →
      s.TselSet (t.burst a die 0x1F 0x801C more) a die (more.getLast?.getD w) := by
  induction more with
  | nil => exact fun h => h
  | cons v more ih =>
    intro t w h
    have first : t.burst a die 0x1F 0x801C (v :: more) = (t.regWrite a die 0x1F 0x801C v).burst a die 0x1F 0x801C more := by
      have ok : t.reply.status = .ok := by rw [h.1]
      simp [State.burst, ok]
    rw [first, List.getLast?_cons, Option.getD_some]
    exact ih (h.write on v)

theorem State.TselSet.done {s t : State} {a : Agent} {die : Nat} {w : Word} (h : s.TselSet t a die w) :
    done s t = .next t := done_eq s t (by rw [h.1]) (by rw [h.1])

/-- A burst write of the tenant selector. -/
theorem exec_registerWrite_timeTsel (s : State) (a : Agent) (die : Nat) (v : Word) (more : List Word) (hd : die < 2)
    (hs : s.slot < 16) (on : s.power.st ≠ .off) :
    ∃ t, exec (.registerWrite a (s.regAddr die 0x1F 0x801C) 4 (v, more)) s = .next t ∧
      s.TselSet t a die (more.getLast?.getD v) := by
  have first : s.TselSet (s.regWrite a die 0x1F 0x801C v) a die v := by
    rw [s.regWrite_timeTsel a die v on]
    exact ⟨rfl, s.selOf_setSel ..⟩
  have set := first.burst on more
  refine ⟨_, ?_, set⟩
  show done s (s.access a _ 4 _) = _
  rw [s.access_regAddr a _ hd hs ⟨.inr rfl, by decide, by decide⟩ on]
  exact set.done

/-- Where nothing reaches a listed slot, the access is recorded under cause 0x17 and answered FAULT. -/
theorem State.unreachable_records (s : State) (a : Agent) (addr : Nat) :
    ∃ t, s.unreachable a addr = t.answer .fault [] ∧ s.FaultFrame t ∧
      Tab.get 0 (t.flt 0).cnt 0x17 = satAdd (Tab.get 0 (s.flt 0).cnt 0x17) 1 :=
  ⟨_, rfl, s.record_faultFrame .., s.record_cnt ..⟩

theorem exec_readClear_unreachable (s : State) (a : Agent) (addr len : Nat) (b : Board) (on : s.power.st ≠ .off)
    (good : badAccess addr len = false) (far : addrSlot addr ≠ s.slot) (hb : s.board = some b)
    (listed : addrSlot addr ∈ b.slots) (cut : s.homeLink 0 (addrSlot addr) = none) :
    ∃ t, exec (.readClear a addr len) s = .next t ∧ t.reply = { status := .fault, data := [] } ∧ t.clusters = s.clusters ∧
      Tab.get 0 (t.flt 0).cnt 0x17 = satAdd (Tab.get 0 (s.flt 0).cnt 0x17) 1 := by
  obtain ⟨t, answered, frame, counted⟩ := s.unreachable_records a addr
  refine ⟨t.answer .fault [], ?_, rfl, frame.clusters, counted⟩
  show done s (s.access a addr len _) = _
  rw [s.access_unreachable a addr len _ b on good far hb listed cut, answered]
  exact frame.done_answer .fault []

/-- Settles O45: a row is the access to its register's address, by the layout of that address; the judging of an access
is decided case by case, and a burst by induction on its further words. -/
theorem registerRowsAreAccesses : Obligations.RegisterRowsAreAccesses := by
  refine ⟨fun a die cluster k v s c cl off hd hc hs hk => ⟨fun h => ?_, ?_, fun h => ?_⟩,
    fun a addr len v more s => ⟨fun off => ?_, fun on bad => ?_, fun b => ?_, fun die hd hs on => ?_⟩⟩
  · obtain ⟨place, e⟩ := exec_writeRow a die cluster k v s c cl off hc h
    rw [e, exec_registerWrite_regAddr s a v hd hs place]
  · exact (exec_registerWrite_regAddr s a v (by decide) hs ⟨.inr rfl, by decide, by decide⟩).symm
  · obtain ⟨place, e⟩ := exec_readRow a die cluster k s c cl off hc hk h
    rw [e, exec_readClear_regAddr s a hd hs place]
  · exact ⟨congrArg (done s) (s.access_off a addr len _ off), congrArg (done s) (s.access_off a addr len _ off)⟩
  · exact ⟨congrArg (done s) (s.access_bad a addr len _ on bad), congrArg (done s) (s.access_bad a addr len _ on bad)⟩
  · exact exec_readClear_unreachable s a addr len b
  · obtain ⟨t, e, set⟩ := exec_registerWrite_timeTsel s a die v more hd hs on
    exact ⟨t, e, set⟩

end Sys2Proof.Machine
end

section
/-!
PROOFS. O46: writes of the registers of a cluster.
-/

namespace Sys2Proof.Machine

/-- A write of a register whose fields are the keeper's, by the keeper. -/
theorem State.keeperWrite_keeper (s : State) {a : Agent} (cur v mask : Word) (f : State → Word → State) (h : a.kind = .keeper) :
    s.keeperWrite a cur v mask f = (f s ((cur &&& ~~~mask) ||| (v &&& mask)), .ok) := if_pos h

/-- By another agent, where the word differs from what the fields hold. -/
theorem State.keeperWrite_other (s : State) {a : Agent} {cur v mask : Word} (f : State → Word → State)
    (h : a.kind ≠ .keeper) (differs : (cur ^^^ v) &&& mask ≠ 0) : s.keeperWrite a cur v mask f = (s, .auth) := by
  rw [State.keeperWrite, if_neg h, if_neg differs]

/-- A write refused with AUTH: it is counted under cause 0x16 and changes no register (R11). -/
def State.WriteRefused (s t : State) (die : Nat) : Prop :=
  t.reply = { status := .auth, data := [] } ∧ t.clusters = s.clusters ∧ t.routers = s.routers ∧ t.sel = s.sel ∧
    t.regs = s.regs ∧ Tab.get 0 (t.flt die).cnt 0x16 = satAdd (Tab.get 0 (s.flt die).cnt 0x16) 1

section
variable {s : State} (a : Agent) {die cl p off : Nat} (v : Word) (on : s.power.st ≠ .off)
  (hp : s.physOf die cl = some p) (h2 : s.pstate die p ≠ 2) (h3 : s.pstate die p ≠ 3) (fop : off ≠ 0x702C)
include on hp h2 h3 fop

/-- A write that its register answers with another status than AUTH. -/
theorem State.clusterWrite_answers {t : State} {st : Status} (hw : s.writeCluster a die p off v = (t, st)) (hst : st ≠ .auth)
    (pending : t.pending = s.pending) (part : t.part = s.part) :
    done s (s.regWrite a die cl off v) = .next (t.answer st []) := by
  rw [State.regWrite_cluster a v on hp h2 h3 fop, hw, State.endWrite_of_ne_auth a die p _ t hst]
  exact done_eq _ _ pending part

/-- A write that its register answers AUTH. -/
theorem State.clusterWrite_refused (hw : s.writeCluster a die p off v = (s, .auth)) :
    ∃ t, done s (s.regWrite a die cl off v) = .next t ∧ s.WriteRefused t die := by
  rw [State.regWrite_cluster a v on hp h2 h3 fop, hw, State.endWrite_auth]
  have frame := s.authCount_faultFrame a die p (s.regAddr die cl off)
  exact ⟨_, frame.done_answer .auth [], rfl, frame.clusters, frame.routers, frame.sel, frame.regs, s.authCount_cnt ..⟩

end

/-! The windows of a context (R451). -/

theorem windowOf_within {v : Word} {store : Nat} (hb : bitsOf v 0 8 < store) (hs : bitsOf v 0 8 + bitsOf v 8 9 ≤ store) :
    windowOf v store = some (bitsOf v 0 8, bitsOf v 8 9) := by
  have h : ¬(store < bitsOf v 0 8 + bitsOf v 8 9 ∨ store ≤ bitsOf v 0 8) := by omega
  simp [windowOf, h]

theorem windowOf_past {v : Word} {store : Nat} (h : store < bitsOf v 0 8 + bitsOf v 8 9) : windowOf v store = none := by
  simp [windowOf, h]

theorem bitsOf_lt (w : Word) (lo n : Nat) : bitsOf w lo n < 2 ^ n := Nat.mod_lt _ (Nat.two_pow_pos n)

/-- The context that an agent's SEQ_CSEL shows. -/
def State.seqCtx (s : State) (a : Agent) (die p : Nat) : Nat := (s.selOf a (clSite die p) 0x0008).toNat % 16

/-- A window register's value taken into its context, or BOUNDS where there is none. -/
def State.putWindow (s : State) (die p n : Nat) (k : Nat × Nat → Ctx) (w : Option (Nat × Nat)) : State × Status :=
  w.elim (s, .bounds) fun w => (s.setCluster die p ((s.cluster die p).setCtx n (k w)), .ok)

/-- A keeper write of SEQ_LWIN, whose windows lie in a store of 256 KiB. -/
theorem State.writeCluster_lwin (s : State) {a : Agent} (die p : Nat) (v : Word) (ha : a.kind = .keeper) :
    s.writeCluster a die p 0x0010 v = s.putWindow die p (s.seqCtx a die p)
      (fun w => { (s.cluster die p).ctx (s.seqCtx a die p) with lbase := w.1, lsize := w.2 }) (windowOf v 256) :=
  (if_pos ha).trans (by cases windowOf v 256 <;> rfl)

/-- A keeper write of SEQ_DWIN, whose windows lie in a store of 64 KiB. -/
theorem State.writeCluster_dwin (s : State) {a : Agent} (die p : Nat) (v : Word) (ha : a.kind = .keeper) :
    s.writeCluster a die p 0x0014 v = s.putWindow die p (s.seqCtx a die p)
      (fun w => { (s.cluster die p).ctx (s.seqCtx a die p) with dbase := w.1, dsize := w.2 }) (windowOf v 64) :=
  (if_pos ha).trans (by cases windowOf v 64 <;> rfl)

/-- A context has become `k` and the write was answered OK; nothing else changed. -/
def State.Windowed (s t : State) (die p n : Nat) (k : Ctx) : Prop :=
  t = { s with clusters := t.clusters, reply := { status := .ok, data := [] } } ∧ (t.cluster die p).ctx n = k ∧
    (∀ m, m ≠ n → (t.cluster die p).ctx m = (s.cluster die p).ctx m) ∧
    ∀ d q, clKey d q ≠ clKey die p → t.cluster d q = s.cluster d q

theorem State.windowed_setCtx (s : State) (die p n : Nat) (k : Ctx) :
    s.Windowed ((s.setCluster die p ((s.cluster die p).setCtx n k)).answer .ok []) die p n k := by
  let c := (s.cluster die p).setCtx n k
  have here : (s.setCluster die p c).cluster die p = c := s.cluster_setCluster die p c
  refine ⟨rfl, ?_, fun m h => ?_, fun d q h => s.cluster_setCluster_ne c h⟩
  · exact (congrArg (·.ctx n) here).trans (Cluster.ctx_setCtx ..)
  · exact (congrArg (·.ctx m) here).trans (Cluster.ctx_setCtx_ne _ _ h)

section
variable {s : State} (a : Agent) {die cl p off n : Nat} (v : Word) (on : s.power.st ≠ .off)
  (hp : s.physOf die cl = some p) (h2 : s.pstate die p ≠ 2) (h3 : s.pstate die p ≠ 3) (fop : off ≠ 0x702C)
include on hp h2 h3 fop

/-- A window that lies in its store is taken. -/
theorem State.windowWrite_taken {k : Nat × Nat → Ctx} {w : Option (Nat × Nat)} {x : Nat × Nat}
    (hw : s.writeCluster a die p off v = s.putWindow die p n k w) (some_ : w = some x) :
    ∃ t, done s (s.regWrite a die cl off v) = .next t ∧ s.Windowed t die p n (k x) := by
  subst some_
  exact ⟨_, State.clusterWrite_answers a v on hp h2 h3 fop hw (by decide) rfl rfl, s.windowed_setCtx die p n (k x)⟩

/-- A window that does not is answered BOUNDS. -/
theorem State.windowWrite_past {k : Nat × Nat → Ctx} {w : Option (Nat × Nat)}
    (hw : s.writeCluster a die p off v = s.putWindow die p n k w) (none_ : w = none) :
    done s (s.regWrite a die cl off v) = .next (s.answer .bounds []) := by
  subst none_
  exact State.clusterWrite_answers a v on hp h2 h3 fop hw (by decide) rfl rfl

end

/-! The ephemeris and the routing tables (R209, R217). -/

theorem State.writeCluster_ewdataHi (s : State) (a : Agent) (die p : Nat) (v : Word) :
    s.writeCluster a die p 0x6010 v =
      if (a.kind = .keeper || a.kind = .mgmt) = true then s.commitEntry a die p v else (s, .auth) := rfl

/-- The entry that an agent's BNET_EADDR names. -/
def State.ephEntry (s : State) (a : Agent) (die p : Nat) : Nat := bitsOf (s.selOf a (clSite die p) 0x6008) 0 12

/-- The word that a commit makes of the staged low word and the high byte written. -/
def State.stagedEntry (s : State) (die p : Nat) (v : Word) : BitVec 40 :=
  BitVec.ofNat 40 ((s.reg (clSite die p) 0x600C 0).toNat + bitsOf v 0 8 * 4294967296)

theorem State.commitEntry_busy (s : State) (a : Agent) (die p : Nat) (v : Word)
    (h : s.mayCommit die p (s.ephEntry a die p) = false) : s.commitEntry a die p v = (s, .busy) := by
  have h : s.mayCommit die p (bitsOf (s.selOf a (clSite die p) 0x6008) 0 12) = false := h
  simp [State.commitEntry, h]

/-- A router with one entry of its ephemeris written, as the switch reads it and as R412 reads it back. -/
def Router.writeEntry (r : Router) (i : Nat) (e : BitVec 40) : Router :=
  { r with eph := Tab.set 0xFFFFFFFFFF r.eph i e, written := Tab.set 0xFFFFFFFFFF r.written i e }

theorem Router.entry_writeEntry (r : Router) (i : Nat) (e : BitVec 40) : (r.writeEntry i e).entry i = e :=
  Tab.get_set_self ..

theorem Router.entry_writeEntry_ne (r : Router) {i m : Nat} (e : BitVec 40) (h : m ≠ i) :
    (r.writeEntry i e).entry m = r.entry m := Tab.get_set_ne _ _ _ h

/-- What is read of a router and of a select register that were just written, and what stays. -/
theorem State.setRouter_setSel (s : State) (a : Agent) (die p site off : Nat) (r : Router) (w : Word) :
    ∃ t, (s.setRouter die p r).setSel a site off w = t ∧ t.router die p = r ∧ t.selOf a site off = w ∧
      t.clusters = s.clusters ∧ t.pending = s.pending ∧ t.part = s.part :=
  ⟨_, rfl, s.router_setRouter die p r, State.selOf_setSel .., rfl, rfl, rfl⟩

/-- A commit writes one entry of its router, and moves ENTRY on. -/
theorem State.commitEntry_ok (s : State) (a : Agent) (die p : Nat) (v : Word)
    (h : s.mayCommit die p (s.ephEntry a die p) = true) :
    ∃ t, s.commitEntry a die p v = (t, .ok) ∧
      t.router die p = (s.router die p).writeEntry (s.ephEntry a die p) (s.stagedEntry die p v) ∧
      t.selOf a (clSite die p) 0x6008 = word32 ((s.ephEntry a die p + 1) % 4096) ∧
      t.clusters = s.clusters ∧ t.pending = s.pending ∧ t.part = s.part := by
  obtain ⟨t, written, kept⟩ := s.setRouter_setSel a die p (clSite die p) 0x6008
    ((s.router die p).writeEntry (s.ephEntry a die p) (s.stagedEntry die p v)) (word32 ((s.ephEntry a die p + 1) % 4096))
  have may : s.mayCommit die p (bitsOf (s.selOf a (clSite die p) 0x6008) 0 12) = true := h
  refine ⟨t, ?_, kept⟩
  rw [← written]
  simp only [State.commitEntry, may, if_true, Router.writeEntry, State.ephEntry, State.stagedEntry]

/-- The keeper may not write the table of the current version, nor any table under a drain. -/
theorem State.writeRtdata_busy (s : State) {a : Agent} (die p : Nat) (v : Word) (ha : a.kind = .keeper)
    (h : (s.dieOf die).draining = true ∨ s.rtIndex a die p / 128 = epochBit (s.dieOf die).epoch) :
    s.writeRtdata a die p v = (s, .busy) := by
  simp [State.writeRtdata, ha, h]

/-- A keeper write of another table changes one entry of it. -/
theorem State.writeRtdata_ok (s : State) {a : Agent} (die p : Nat) (v : Word) (ha : a.kind = .keeper)
    (hd : (s.dieOf die).draining = false) (hv : s.rtIndex a die p / 128 ≠ epochBit (s.dieOf die).epoch) :
    s.writeRtdata a die p v = (s.setRouter die p { s.router die p with
      rt := Tab.set 15 (s.router die p).rt (s.rtIndex a die p) (v.setWidth 5) }, .ok) := by
  have low : ∀ x : BitVec 5, x &&& 31#5 = x := fun _ => BitVec.and_allOnes
  simp [State.writeRtdata, ha, hd, hv, State.keeperWrite_keeper, low]

section
variable {s : State} {a : Agent} {die cl p : Nat} (v : Word) (on : s.power.st ≠ .off)
  (hp : s.physOf die cl = some p) (h2 : s.pstate die p ≠ 2) (h3 : s.pstate die p ≠ 3)
include on hp h2 h3

/-- The row of BNET_EWDATA_HI, by an agent that loads ephemerides, into a partition that may be written. -/
theorem exec_ewdataHi_commits (ha : a.kind = .keeper ∨ a.kind = .mgmt)
    (h : s.mayCommit die p (s.ephEntry a die p) = true) :
    ∃ t, exec (.bnetEwdataHiWrite a die cl v) s = .next t ∧ t.reply = { status := .ok, data := [] } ∧
      (t.router die p).entry (s.ephEntry a die p) = s.stagedEntry die p v ∧
      (∀ m, m ≠ s.ephEntry a die p → (t.router die p).entry m = (s.router die p).entry m) ∧
      t.selOf a (clSite die p) 0x6008 = word32 ((s.ephEntry a die p + 1) % 4096) ∧ t.clusters = s.clusters := by
  obtain ⟨t, committed, router, sel, clusters, pending, part⟩ := s.commitEntry_ok a die p v h
  have hw : s.writeCluster a die p 0x6010 v = (t, .ok) := by
    rw [State.writeCluster_ewdataHi, if_pos (by simpa using ha), committed]
  have here : (t.answer .ok []).router die p = _ := router
  refine ⟨_, State.clusterWrite_answers a v on hp h2 h3 (by decide) hw (by decide) pending part, rfl, ?_, fun m hm => ?_, sel,
    clusters⟩
  · rw [here, Router.entry_writeEntry]
  · rw [here, Router.entry_writeEntry_ne _ _ hm]

/-- Into another entry it is BUSY. -/
theorem exec_ewdataHi_busy (ha : a.kind = .keeper ∨ a.kind = .mgmt)
    (h : s.mayCommit die p (s.ephEntry a die p) = false) :
    exec (.bnetEwdataHiWrite a die cl v) s = .next (s.answer .busy []) := by
  have hw : s.writeCluster a die p 0x6010 v = (s, .busy) := by
    rw [State.writeCluster_ewdataHi, if_pos (by simpa using ha), State.commitEntry_busy s a die p v h]
  exact State.clusterWrite_answers a v on hp h2 h3 (by decide) hw (by decide) rfl rfl

/-- By another agent it is AUTH. -/
theorem exec_ewdataHi_refused (ha : a.kind = .host ∨ a.kind = .remote) :
    ∃ t, exec (.bnetEwdataHiWrite a die cl v) s = .next t ∧ s.WriteRefused t die := by
  have hw : s.writeCluster a die p 0x6010 v = (s, .auth) := by
    rw [State.writeCluster_ewdataHi, if_neg]
    rcases ha with ha | ha <;> simp [ha]
  exact State.clusterWrite_refused a v on hp h2 h3 (by decide) hw

/-- The row of BNET_RTDATA by the keeper: BUSY, or the change of one entry. -/
theorem exec_rtdata_busy (ha : a.kind = .keeper)
    (h : (s.dieOf die).draining = true ∨ s.rtIndex a die p / 128 = epochBit (s.dieOf die).epoch) :
    exec (.bnetRtdataWrite a die cl v) s = .next (s.answer .busy []) :=
  State.clusterWrite_answers a v on hp h2 h3 (by decide) (s.writeRtdata_busy die p v ha h) (by decide) rfl rfl

theorem exec_rtdata_writes (ha : a.kind = .keeper) (hd : (s.dieOf die).draining = false)
    (hv : s.rtIndex a die p / 128 ≠ epochBit (s.dieOf die).epoch) :
    ∃ t, exec (.bnetRtdataWrite a die cl v) s = .next t ∧
      t = { s with routers := t.routers, reply := { status := .ok, data := [] } } ∧
      Tab.get 15 (t.router die p).rt (s.rtIndex a die p) = v.setWidth 5 ∧
      ∀ m, m ≠ s.rtIndex a die p → Tab.get 15 (t.router die p).rt m = Tab.get 15 (s.router die p).rt m := by
  let r : Router :=
    { s.router die p with rt := Tab.set 15 (s.router die p).rt (s.rtIndex a die p) (v.setWidth 5) }
  have here : ((s.setRouter die p r).answer .ok []).router die p = r := s.router_setRouter die p r
  refine ⟨(s.setRouter die p r).answer .ok [],
    State.clusterWrite_answers a v on hp h2 h3 (by decide) (s.writeRtdata_ok die p v ha hd hv) (by decide) rfl rfl, rfl, ?_,
    fun m hm => ?_⟩
  · rw [here]; exact Tab.get_set_self ..
  · rw [here]; exact Tab.get_set_ne _ _ _ hm

/-- The row of SEQ_LWIN by an agent that may not write it. -/
theorem exec_lwin_refused (ha : a.kind ≠ .keeper)
    (h : (word32 (((s.cluster die p).ctx (s.seqCtx a die p)).lbase % 256 +
      ((s.cluster die p).ctx (s.seqCtx a die p)).lsize % 512 * 256) ^^^ v) &&& 0x1FFFF ≠ 0) :
    ∃ t, exec (.seqWinWrite a die cl .lwin v) s = .next t ∧ s.WriteRefused t die := by
  have hw : s.writeCluster a die p 0x0010 v = (s, .auth) :=
    (if_neg ha).trans (s.keeperWrite_other (fun s _ => s) ha h)
  exact State.clusterWrite_refused a v on hp h2 h3 (by decide) hw

end

/-- Settles O46: each write is taken to its register's own answer, which is AUTH, BOUNDS, BUSY or the change of one context,
one ephemeris entry or one routing-table entry. -/
theorem clusterRegisterWrites : Obligations.ClusterRegisterWrites := by
  intro a die cluster p v s on hp h2 h3
  have base := bitsOf_lt v 0 8
  refine ⟨fun ha fits => ?_, fun ha low fits => ?_, fun ha past => ⟨?_, ?_⟩, fun ha differs => ?_, fun ha may => ?_,
    fun ha may => ?_, fun ha => ?_, fun ha busy => ?_, fun ha hd hv => ?_⟩
  · exact State.windowWrite_taken a v on hp h2 h3 (by decide) (s.writeCluster_lwin die p v ha) (windowOf_within base fits)
  · exact State.windowWrite_taken a v on hp h2 h3 (by decide) (s.writeCluster_dwin die p v ha) (windowOf_within low fits)
  · exact State.windowWrite_past a v on hp h2 h3 (by decide) (s.writeCluster_lwin die p v ha) (windowOf_past past)
  · exact State.windowWrite_past a v on hp h2 h3 (by decide) (s.writeCluster_dwin die p v ha)
      (windowOf_past (Nat.lt_trans (by decide) past))
  · exact exec_lwin_refused v on hp h2 h3 ha differs
  · exact exec_ewdataHi_commits v on hp h2 h3 ha may
  · exact exec_ewdataHi_busy v on hp h2 h3 ha may
  · exact exec_ewdataHi_refused v on hp h2 h3 ha
  · exact exec_rtdata_busy v on hp h2 h3 ha busy
  · exact exec_rtdata_writes v on hp h2 h3 ha hd hv

end Sys2Proof.Machine
end

section
/-!
PROOFS. O13: the vector operations.
-/

namespace Sys2Proof.Machine

theorem State.vecSlot_eq {s : State} {a : Issue} {i : Issuer} (hi : s.issuer a = some i) (f : VecSlot) (op : Nat)
    (run : Ctx → VCore → VecOut) : s.vecSlot a f op run = s.file a
      ((run (s.ctxAt a) ((s.cluster a.die a.phys).vcore f.core)).commits f (s.catOf i.tenant) op i.beat) :=
  s.slot_some a i _ hi

/-- A vector slot puts on their way what its operation gives from the registers of its issue beat, and does nothing else
(R126, R131, R135). -/
theorem State.vecSlot_files {s : State} {a : Issue} {f : VecSlot} {op : Nat} {run : Ctx → VCore → VecOut} {r : VecOut}
    {i : Issuer} (hi : s.issuer a = some i) (hr : run (s.ctxAt a) ((s.cluster a.die a.phys).vcore f.core) = r) :
    ∃ t, done s (s.vecSlot a f op run) = .next t ∧ s.SlotFrame t a ∧
      s.Issued t a (r.commits f (s.catOf i.tenant) op i.beat) [] := by
  rw [State.vecSlot_eq hi, hr]
  exact ⟨_, (s.file_frame a _).done, s.file_frame a _, by simp, by simp⟩

/-! Lanes (R122, R124). -/

theorem VCore.reg_eq_map_lane (v : VCore) (r : Nat) : v.reg r = (List.range 128).map (v.lane r) := rfl

theorem VCore.lane_mem_reg (v : VCore) (r : Nat) {j : Nat} (hj : j < 128) : v.lane r j ∈ v.reg r :=
  List.mem_map.mpr ⟨j, List.mem_range.mpr hj, rfl⟩

theorem VCore.reg_getElem? (v : VCore) (r : Nat) {j : Nat} (hj : j < 128) : (v.reg r)[j]? = some (v.lane r j) := by
  simp [VCore.reg_eq_map_lane, hj]

theorem operandB_getElem? (k : Ctx) (v : VCore) (f : VecSlot) {j : Nat} (hj : j < 128) :
    (operandB k v f)[j]? = some (if f.sb = 1 then k.param f.pp else v.lane f.vb j) := by
  unfold operandB
  split
  · rw [List.getElem?_replicate, if_pos hj]
  · exact v.reg_getElem? f.vb hj

theorem operandB_length (k : Ctx) (v : VCore) (f : VecSlot) : (operandB k v f).length = 128 := by
  unfold operandB
  split
  · exact List.length_replicate
  · exact Tab.getRun_length ..

/-- No result is −0 (R118). -/
theorem posZero_ne_negZero (w : Word) : posZero w ≠ 0x80000000 := by
  unfold posZero
  split
  next => decide
  next notZero => rintro rfl; exact notZero (by decide)

/-- What an elementwise operation gives in one lane: in packed mode each half apart, and no −0. -/
def laneResult (f : VecSlot) (op : Word → Word → Word → Word × Flags4) (x y z : Word) : Word :=
  if f.pk = 1 then (packedOp (fun x y z => (posZero (op x y z).1, (op x y z).2)) x y z).1 else posZero (op x y z).1

/-- An elementwise operation fills one register, lane j of it from lane j of the operands. -/
theorem elementwise_regs (f : VecSlot) (op : Word → Word → Word → Word × Flags4) (k : Ctx) (v : VCore) :
    ∃ ws, (elementwise f op k v).regs = [(f.vd, ws)] ∧ ws.length = 128 ∧ ∀ j, j < 128 → ws[j]? =
      some (laneResult f op (v.lane f.va j) (if f.sb = 1 then k.param f.pp else v.lane f.vb j) (v.lane f.vc j)) := by
  refine ⟨_, rfl, ?_, fun j hj => ?_⟩
  · simp [zip3, operandB_length, VCore.reg, Tab.getRun_length]
  · have operands : (zip3 (v.reg f.va) (operandB k v f) (v.reg f.vc))[j]? =
        some (v.lane f.va j, if f.sb = 1 then k.param f.pp else v.lane f.vb j, v.lane f.vc j) := by
      simp [zip3, List.getElem?_zip_eq_some, VCore.reg_getElem?, operandB_getElem?, hj]
    rw [List.getElem?_map, List.getElem?_map, operands]
    simp only [Option.map_some, laneResult, apply_ite Prod.fst]

/-! Rotary position (R120, R133). -/

/-- ROPE of pair i of a register. -/
def ropeTurn (f : VecSlot) (k : Ctx) (v : VCore) (i : Nat) : (Word × Word) × Flags4 :=
  let p := (k.param f.pp).toNat % 2 ^ 24
  ropePair (p = 0) (p * (Tab.get 0 v.rope i).toNat % 2 ^ 32) (v.lane f.va (ropeLanes f.pair i).1)
    (v.lane f.va (ropeLanes f.pair i).2)

/-- What ROPE writes. -/
def ropeOut (f : VecSlot) (k : Ctx) (v : VCore) : VecOut :=
  let rs := (List.range 64).map (ropeTurn f k v)
  { regs := [(f.vd, (List.range 128).map (ropeLane f.pair rs))], row := none, flags := rs.foldl (fun x r => x ||| r.2) 0 }

theorem execRope_eq (a : Issue) (f : VecSlot) (s : State) : execRope a f s = done s (s.vecSlot a f 0x18 (ropeOut f)) := rfl

theorem ropeLanes_lt (pair : Nat) {i : Nat} (hi : i < 64) : (ropeLanes pair i).1 < 128 ∧ (ropeLanes pair i).2 < 128 := by
  unfold ropeLanes
  split <;> constructor <;> dsimp only <;> omega

/-- Putting the results of the pairs back in lane order undoes taking the lanes in pairs. -/
theorem ropeLane_of_pairs (pair : Nat) (turn : Nat → (Word × Word) × Flags4) (w : Nat → Word)
    (h : ∀ i, i < 64 → (turn i).1 = (w (ropeLanes pair i).1, w (ropeLanes pair i).2)) {j : Nat} (hj : j < 128) :
    ropeLane pair ((List.range 64).map turn) j = w j := by
  have result : ∀ i, i < 64 → (((List.range 64).map turn).getD i ((0, 0), 0)).1 =
      (w (ropeLanes pair i).1, w (ropeLanes pair i).2) := fun i hi => by
    rw [← h i hi]
    simp [List.getD_eq_getElem?_getD, hi]
  unfold ropeLane
  by_cases hp : pair = 0
  · simp only [hp, if_true, result (j / 2) (by omega), ropeLanes]
    split <;> congr 1 <;> omega
  · simp only [hp, if_false, result (j % 64) (by omega), ropeLanes]
    split <;> congr 1 <;> omega

/-- ROPE of a finite pair by no phase. -/
theorem ropePair_unturned {x y : Word} (pos0 : Bool) (hx : ∃ n m e, f32 x = .fin n m e) (hy : ∃ n m e, f32 y = .fin n m e) :
    ropePair pos0 0 x y = ((posZero x, posZero y), 0) := by
  obtain ⟨n, m, e, hx⟩ := hx
  obtain ⟨n', m', e', hy⟩ := hy
  simp [ropePair, hx, hy]

/-- At position 0 no finite pair is turned: its components are as they were, −0 as +0, and no flag is raised. -/
theorem ropeTurn_zero {f : VecSlot} {k : Ctx} {v : VCore} (still : (k.param f.pp).toNat % 2 ^ 24 = 0)
    (finite : ∀ w ∈ v.reg f.va, ∃ n m e, f32 w = .fin n m e) {i : Nat} (hi : i < 64) :
    ropeTurn f k v i = ((posZero (v.lane f.va (ropeLanes f.pair i).1), posZero (v.lane f.va (ropeLanes f.pair i).2)), 0) := by
  obtain ⟨h1, h2⟩ := ropeLanes_lt f.pair hi
  simp only [ropeTurn, still, Nat.zero_mul, Nat.zero_mod]
  exact ropePair_unturned _ (finite _ (v.lane_mem_reg f.va h1)) (finite _ (v.lane_mem_reg f.va h2))

/-- Results without flags raise none. -/
theorem foldl_or_flags_zero {α : Type} (rs : List (α × Flags4)) (h : ∀ r ∈ rs, r.2 = 0) :
    rs.foldl (fun x r => x ||| r.2) 0 = 0 := by
  induction rs with
  | nil => rfl
  | cons r rs ih =>
    obtain ⟨head, tail⟩ := List.forall_mem_cons.mp h
    rw [List.foldl_cons, head]
    exact ih tail

theorem ropeOut_zero {f : VecSlot} {k : Ctx} {v : VCore} (still : (k.param f.pp).toNat % 2 ^ 24 = 0)
    (finite : ∀ w ∈ v.reg f.va, ∃ n m e, f32 w = .fin n m e) :
    (ropeOut f k v).regs = [(f.vd, (v.reg f.va).map posZero)] ∧ (ropeOut f k v).flags = 0 := by
  have turned := @ropeTurn_zero f k v still finite
  constructor
  · have lanes : ∀ j ∈ List.range 128, ropeLane f.pair ((List.range 64).map (ropeTurn f k v)) j = posZero (v.lane f.va j) :=
      fun j hj => ropeLane_of_pairs f.pair _ (fun j => posZero (v.lane f.va j))
        (fun i hi => congrArg Prod.fst (turned hi)) (List.mem_range.mp hj)
    rw [VCore.reg_eq_map_lane, List.map_map]
    exact congrArg (fun ws => [(f.vd, ws)]) (List.map_congr_left lanes)
  · refine foldl_or_flags_zero _ fun r hr => ?_
    obtain ⟨i, hi, rfl⟩ := List.mem_map.mp hr
    exact congrArg Prod.snd (turned (List.mem_range.mp hi))

/-- Settles O13: every operation is one vector slot, whose results are its rule's; an elementwise result is judged lane by
lane, and ROPE at position 0 puts each lane back where its pair took it. -/
theorem vectorSlotsRun : Obligations.VectorSlotsRun := by
  refine ⟨fun a f s i hi => ?_, fun f op k v j hj => ?_⟩
  · have files := @State.vecSlot_files s a f
    refine ⟨files hi rfl, files hi rfl, files hi rfl, files hi rfl, files hi rfl, files hi rfl, files hi rfl, files hi rfl,
      files hi rfl, files hi rfl, files hi rfl, files hi rfl, files hi rfl, files hi rfl, files hi rfl,
      fun empty => files hi (if_pos empty), fun filled => files hi (if_neg filled), ?_⟩
    obtain ⟨t, runs, issued⟩ := files (op := 0x18) (run := ropeOut f) hi rfl
    exact ⟨t, _, runs, issued, rfl, rfl, ropeOut_zero⟩
  · obtain ⟨ws, regs, length, lanes⟩ := elementwise_regs f op k v
    refine ⟨ws, regs, length, fun unpacked => ?_, fun packed => ?_⟩
    · have lane := (lanes j hj).trans (congrArg some (if_neg unpacked))
      exact ⟨lane, fun e => posZero_ne_negZero _ (Option.some.inj (lane.symm.trans e))⟩
    · exact (lanes j hj).trans (congrArg some (if_pos packed))

end Sys2Proof.Machine
end

section
/-!
PROOFS. What a slot's first beat reads, and what it does when all it does is file results.
-/

namespace Sys2Proof.Machine

/-! What a slot reads on its issue beat. -/

/-- A place shows a slot what it shows in another state: its context, the bytes and the index buffer of its cluster, slices
as much in error, and the tenants' bindings. -/
structure State.SameInputs (s v : State) (a : Issue) : Prop where
  ctxAt : v.ctxAt a = s.ctxAt a
  spad : (v.cluster a.die a.phys).spad = (s.cluster a.die a.phys).spad
  xb : (v.cluster a.die a.phys).xb = (s.cluster a.die a.phys).xb
  slice : ∀ n, (v.cluster a.die a.phys).slice n = (s.cluster a.die a.phys).slice n
  tenants : v.tenants = s.tenants

theorem State.SlotFrame.sameInputs {s v : State} {a : Issue} (h : s.SlotFrame v a) (hc : v.ctxAt a = s.ctxAt a) :
    s.SameInputs v a := by
  obtain ⟨spad, -, xb, -, -, slice⟩ := h.cluster
  exact ⟨hc, spad, xb, slice, by rw [h.1.1]⟩

theorem State.Alike.sameInputs {s t : State} (h : s.Alike t) (a : Issue) : s.SameInputs t a :=
  (h.slotFrame a).sameInputs (h.ctxAt a)

theorem State.SameInputs.trans {s t u : State} {a : Issue} (h : s.SameInputs t a) (k : t.SameInputs u a) : s.SameInputs u a :=
  ⟨k.ctxAt.trans h.ctxAt, k.spad.trans h.spad, k.xb.trans h.xb, fun n => (k.slice n).trans (h.slice n),
    k.tenants.trans h.tenants⟩

/-- What a slot reads on its issue beat stands as it was before the slot took its ports. -/
theorem State.takePorts_sameInputs (s : State) (a : Issue) (p : Plan) : s.SameInputs (s.takePorts a p) a :=
  (s.takePorts_frame a p).1.sameInputs (s.takePorts_frame a p).2

section
variable {s v : State} {a : Issue} (h : s.SameInputs v a)
include h

theorem State.SameInputs.clean (c : (s.cluster a.die a.phys).clean) : (v.cluster a.die a.phys).clean := fun n => by
  rw [h.slice n]
  exact c n

theorem State.SameInputs.catOf (t : Nat) : v.catOf t = s.catOf t := by
  simp only [State.catOf, State.tenant, h.tenants]

theorem State.SameInputs.seedOf (t : Nat) : v.seedOf t = s.seedOf t := by
  simp only [State.seedOf, State.tenant, h.tenants]

theorem State.SameInputs.read (off n : Nat) :
    (v.cluster a.die a.phys).read off n = (s.cluster a.die a.phys).read off n := by
  rw [Cluster.read, h.spad]
  rfl

/-- A scan leaves in place what it read (R185, R186). -/
theorem State.SameInputs.scan (c : (s.cluster a.die a.phys).clean) (i : Issuer) (rs : List (Nat × Nat)) :
    s.SameInputs (v.scan a i rs) a :=
  h.trans ((v.scan_clean a i rs (h.clean c)).sameInputs a)

theorem State.SameInputs.read_scan (c : (s.cluster a.die a.phys).clean) (i : Issuer) (rs : List (Nat × Nat)) (off n : Nat) :
    ((v.scan a i rs).cluster a.die a.phys).read off n = (s.cluster a.die a.phys).read off n :=
  (h.scan c i rs).read off n

end

/-! What a beat does that files results and changes nothing else that is seen. -/

/-- A beat files results: it does nothing but put them on their way. -/
def State.Files (s t : State) (a : Issue) (xs : List (Nat × Commit)) : Prop := s.SlotFrame t a ∧ s.Issued t a xs []

theorem State.Alike.files {s t : State} (h : s.Alike t) (a : Issue) : s.Files t a [] :=
  ⟨h.slotFrame a, by simp [h.ctxAt], by simp [h.ctxAt]⟩

theorem State.Alike.files_file {s t : State} (h : s.Alike t) (a : Issue) (xs : List (Nat × Commit)) :
    s.Files (t.file a xs) a xs :=
  ⟨(h.slotFrame a).trans (t.file_frame a xs), by simp [h.ctxAt], by simp [h.ctxAt]⟩

/-- A beat that scans a range and files what it makes of the bytes there (R182). -/
theorem State.SameInputs.scan_files {s v : State} {a : Issue} (h : s.SameInputs v a) (c : (s.cluster a.die a.phys).clean)
    (i : Issuer) (off n : Nat) (out : List Byte → List (Nat × Commit)) :
    v.Files ((v.scan a i [(off, n)]).file a (out (((v.scan a i [(off, n)]).cluster a.die a.phys).read off n))) a
      (out ((s.cluster a.die a.phys).read off n)) := by
  rw [h.read_scan c]
  exact (v.scan_clean a i _ (h.clean c)).files_file a _

/-- A slot of one beat whose checks pass takes its ports, files its results and does nothing else. -/
theorem State.guarded_files {s : State} {a : Issue} {i : Issuer} {p : Plan} {go : State → State} {xs : List (Nat × Commit)}
    (hp : s.planFails a i p = none) (h : ∀ v, s.SlotFrame v a → s.SameInputs v a → v.Files (go v) a xs) :
    s.Files (s.guarded a i p go) a xs := by
  obtain ⟨frame, ctx⟩ := s.takePorts_frame a p
  obtain ⟨frame', commits, jobs⟩ := h _ frame (s.takePorts_sameInputs a p)
  rw [State.guarded_passes s a i p go hp]
  exact ⟨frame.trans frame', by rw [commits, ctx], by rw [jobs, ctx]⟩

end Sys2Proof.Machine
end

section
/-!
PROOFS. O14: the vector memory operations.
-/

namespace Sys2Proof.Machine

/-- A vector memory slot whose checks pass files its results at its address and does nothing else. -/
theorem State.vmemSlot_files {s : State} {a : Issue} {i : Issuer} {f : VmemSlot} {op : Nat}
    {go : Issuer → Nat → Nat → State → State} {xs : List (Nat × Commit)} (hi : s.issuer a = some i)
    (hp : s.planFails a i (vmemPlan (s.ctxAt a) op f (s.catOf i.tenant)) = none)
    (h : ∀ v, s.SlotFrame v a → s.SameInputs v a →
      v.Files (go i (vmemAddr (s.ctxAt a) f) (i.beat + vecLatency (s.catOf i.tenant) op - 1) v) a xs) :
    ∃ t, done s (s.vmemSlot a f op go) = .next t ∧ s.SlotFrame t a ∧ s.Issued t a xs [] := by
  obtain ⟨frame, issued⟩ := State.guarded_files hp h
  rw [State.vmemSlot, State.slot_some s a i _ hi]
  exact ⟨_, frame.done, frame, issued⟩

/-- What VST makes of the lanes of its register. -/
def vstLanes (f : VmemSlot) (seed : DWord) (ix : Word) (reg : List Word) : List Conv :=
  (reg.zip (List.range 128)).map fun p => vstLane f seed ix p.2 p.1

/-- The bytes VST writes and the flags it raises (R128, R135): a packed register moves unchanged. -/
def vstOut (f : VmemSlot) (seed : DWord) (ix : Word) (reg : List Word) : List Byte × Flags4 :=
  let lanes := vstLanes f seed ix reg
  (if f.pk = 1 then bytesOfWords reg else packBits (elemBits f.fmt) (lanes.map (·.code)),
    if f.pk = 1 then 0 else lanes.foldl (fun x y => x ||| y.flags) 0)

/-- A VST's bytes and, where it raises any, its flags. -/
theorem execVst_files {s : State} {a : Issue} {i : Issuer} {f : VmemSlot} (hi : s.issuer a = some i)
    (hp : s.planFails a i (vmemPlan (s.ctxAt a) 0x21 f (s.catOf i.tenant)) = none) :
    let r := vstOut f (s.seedOf i.tenant) ((s.ctxAt a).param f.pix) (((s.cluster a.die a.phys).vcore f.core).reg f.vr)
    let due := i.beat + vecLatency (s.catOf i.tenant) 0x21 - 1
    ∃ t, exec (.vst a f) s = .next t ∧ s.SlotFrame t a ∧
      s.Issued t a ((due, .spad (vmemAddr (s.ctxAt a) f) r.1) :: if r.2 = 0 then [] else [(due, .vflags f.core r.2)]) [] := by
  refine State.vmemSlot_files hi hp fun v frame same => ?_
  obtain ⟨-, -, -, -, vcore, -⟩ := frame.cluster
  dsimp only
  rw [vcore, same.seedOf, same.ctxAt]
  exact (State.Alike.refl v).files_file a _

/-- Settles O14: each operation is one memory slot; a packed VST moves its register, any other converts its lanes. -/
theorem vectorMemorySlotsRun : Obligations.VectorMemorySlotsRun := by
  intro a f s i hi clean
  refine ⟨fun hp => ?_, fun hp => ?_, fun hp packed => ?_, fun hp unpacked => ?_⟩
  · exact State.vmemSlot_files hi hp fun v _ same =>
      same.scan_files clean i _ _ fun bytes => [(_, .vreg f.core f.vr (vldWords f bytes))]
  · exact State.vmemSlot_files hi hp fun v _ same =>
      same.scan_files clean i _ _ fun bytes => [(_, .rope f.core (wordsOfBytes bytes))]
  · obtain ⟨t, runs, frame, issued⟩ := execVst_files hi hp
    refine ⟨t, runs, frame, ?_⟩
    simpa [vstOut, packed, vmemAddr] using issued
  · obtain ⟨t, runs, frame, issued⟩ := execVst_files hi hp
    refine ⟨t, _, runs, frame, issued, ?_⟩
    simp only [vstOut, unpacked, if_false, vstLanes, List.map_map]
    rfl

end Sys2Proof.Machine
end

section
/-!
PROOFS. O15: the selection operations.
-/

namespace Sys2Proof.Machine

/-! A selection unit taken. -/

theorem State.OnlyCluster.trans {s t u : State} {d p : Nat} (h : s.OnlyCluster t d p) (k : t.OnlyCluster u d p) :
    s.OnlyCluster u d p := by
  refine ⟨?_, fun d' p' e => (k.2 d' p' e).trans (h.2 d' p' e)⟩
  rw [k.1, h.1]

theorem State.OnlyCluster.done {s t : State} {d p : Nat} (h : s.OnlyCluster t d p) : done s t = .next t :=
  done_eq s t (by rw [h.1]) (by rw [h.1])

theorem State.OnlyCluster.regionBeat {s t : State} {a : Issue} (h : s.OnlyCluster t a.die a.phys) :
    t.regionBeat a = s.regionBeat a := by
  rw [h.1]
  rfl

theorem Cluster.slice_setVcore (c : Cluster) (v : Nat) (x : VCore) (n : Nat) : (c.setVcore v x).slice n = c.slice n := by
  unfold Cluster.slice
  split <;> simp

/-- Nothing that a slot reads shows that a selection unit is taken. -/
theorem State.occupy_sameInputs (s : State) (a : Issue) (vc n : Nat) : s.SameInputs (s.occupy a vc n) a := by
  constructor <;> simp [State.occupy, State.ctxAt, Cluster.ctx, Cluster.slice_setVcore]

theorem State.occupy_onlyCluster (s : State) (a : Issue) (vc n : Nat) : s.OnlyCluster (s.occupy a vc n) a.die a.phys :=
  ⟨rfl, fun _ _ e => s.cluster_modCluster_ne _ e⟩

theorem State.occupy_vcore (s : State) (a : Issue) (vc n : Nat) :
    ((s.occupy a vc n).cluster a.die a.phys).vcore vc = ((s.cluster a.die a.phys).vcore vc).occupy (s.regionBeat a) n := by
  simp [State.occupy]

/-- A selection slot has taken the unit of a core for some beats (R136), and changed nothing else that is read but the
results due and the slots under way. -/
def State.Taken (s t : State) (a : Issue) (vc n : Nat) : Prop :=
  s.OnlyCluster t a.die a.phys ∧
    (t.cluster a.die a.phys).vcore vc = ((s.cluster a.die a.phys).vcore vc).occupy (s.regionBeat a) n ∧
    (t.cluster a.die a.phys).spad = (s.cluster a.die a.phys).spad ∧
    (t.cluster a.die a.phys).xb = (s.cluster a.die a.phys).xb ∧
    t.ctxAt a = { s.ctxAt a with commits := (t.ctxAt a).commits, jobs := (t.ctxAt a).jobs }

/-- The unit is taken between the ports of a slot and its first beat. -/
theorem State.SlotFrame.taken {s u t : State} {a : Issue} {vc n : Nat} (h : s.SlotFrame u a)
    (k : (u.occupy a vc n).SlotFrame t a) (hc : u.ctxAt a = s.ctxAt a) : s.Taken t a vc n := by
  have same := (h.sameInputs hc).trans (u.occupy_sameInputs a vc n)
  obtain ⟨spad, -, xb, -, vcore, -⟩ := k.cluster
  obtain ⟨-, -, -, -, vcoreBefore, -⟩ := h.cluster
  refine ⟨h.1.trans ((u.occupy_onlyCluster a vc n).trans k.1), ?_, spad.trans same.spad, xb.trans same.xb, ?_⟩
  · rw [vcore, u.occupy_vcore, vcoreBefore, h.1.regionBeat]
  · rw [k.2.2, same.ctxAt]

/-- A selection slot whose checks pass: it takes its unit, and its first beat does the rest. -/
theorem State.selectionSlot_runs {s : State} {a : Issue} {i : Issuer} {p : Plan} {vc n : Nat} {xs : List (Nat × Commit)}
    {js : List Task} {run : Issuer → State} (go : State → State) (hi : s.issuer a = some i)
    (hp : s.planFails a i p = none) (hr : run i = s.guarded a i p fun u => go (u.occupy a vc n))
    (h : ∀ v, s.SameInputs v a → v.SlotFrame (go v) a ∧ v.Issued (go v) a xs js) :
    ∃ t, done s (s.slot_ a run) = .next t ∧ s.Taken t a vc n ∧ s.Issued t a xs js := by
  rw [State.slot_some s a i run hi, hr, State.guarded_passes s a i p _ hp]
  obtain ⟨frame, ctx⟩ := s.takePorts_frame a p
  have same := (s.takePorts_sameInputs a p).trans ((s.takePorts a p).occupy_sameInputs a vc n)
  obtain ⟨frame', commits, jobs⟩ := h _ same
  have taken := frame.taken frame' ctx
  exact ⟨_, taken.1.done, taken, by rw [commits, same.ctxAt], by rw [jobs, same.ctxAt]⟩

/-! The first beat of a slot of several. -/

/-- The task of a slot on its issue beat. -/
def Issuer.firstTask (i : Issuer) (k : Ctx) (n : Nat) (w : Work) : Task :=
  { issued := i.beat, beats := n, params := k.params, work := w, got := [] }

section
variable (i : Issuer) (k : Ctx) (n : Nat) (w : Work)

@[simp] theorem Issuer.firstTask_issued : (i.firstTask k n w).issued = i.beat := rfl
@[simp] theorem Issuer.firstTask_beats : (i.firstTask k n w).beats = n := rfl
@[simp] theorem Issuer.firstTask_got : (i.firstTask k n w).got = [] := rfl

/-- On its issue beat a task reads the registers as they stand. -/
@[simp] theorem Issuer.firstTask_ctx : (i.firstTask k n w).ctx k = k := rfl

end

/-- A selection slot of several beats whose checks pass: its first beat files results, and a task stands for the others. -/
theorem State.selectionStart_runs {s : State} {a : Issue} {i : Issuer} {p : Plan} {vc n : Nat} {xs : List (Nat × Commit)}
    {js : List Task} {run : Issuer → State} {w : Work} {step : TaskBeat} {j : Task} (hi : s.issuer a = some i)
    (hp : s.planFails a i p = none) (hr : run i = s.guarded a i p fun u => (u.occupy a vc n).start a i n w step)
    (hj : (if n ≤ 1 then [] else [j]) = js)
    (h : ∀ v, s.SameInputs v a → ∃ u, step a i (i.firstTask (s.ctxAt a) n w) v = (u, j) ∧ v.Files u a xs) :
    ∃ t, done s (s.slot_ a run) = .next t ∧ s.Taken t a vc n ∧ s.Issued t a xs js := by
  refine State.selectionSlot_runs (fun v => v.start a i n w step) hi hp hr fun v same => ?_
  obtain ⟨u, first, frame, commits, jobs⟩ := h v same
  rw [← same.ctxAt] at first
  rw [State.start_eq v a i n w step u j first, ← hj]
  split
  · exact ⟨frame, commits, jobs⟩
  · exact ⟨frame.trans (State.addTask_frame ..), by simpa using commits, by simpa using jobs⟩

/-- Bytes that one beat reads of those of a list that are left. -/
def beatRead (len : Nat) : Nat := if len < 512 then len else 512

theorem beatRead_of_le {len : Nat} (h : len ≤ 512) : beatRead len = len := by
  unfold beatRead
  split <;> omega

/-! TOPK (R138, R139). -/

/-- Bytes of the keys of a TOPK. -/
def topkBytes (f : TopkSlot) : Nat := (f.cm1 + 1) * if f.kfmt = 1 then 2 else 4

/-- What a TOPK puts on its way with its last key beat. -/
def topkCommits (f : TopkSlot) (k : Ctx) (due : Nat) (bytes : List Byte) : List (Nat × Commit) :=
  let r := topkOf f (k.param f.pib) bytes
  (due, .index f.xb (r.1 ++ List.replicate (64 - r.1.length) 0xFFFFFFFF)) ::
    (if f.outen = 1 then [(due, .spad (k.offset f.po) (bytesOfWords r.1))] else []) ++
    (if r.2 = 0 then [] else [(due, .events f.vc { SelEvents.none_ with nanfill := r.2 })])

/-- A key beat of a TOPK, by the bytes it reads and what the last of them files. -/
theorem topkBeat_eq (f : TopkSlot) (a : Issue) (i : Issuer) (j : Task) (v : State) :
    let d := i.beat - j.issued
    let k := j.ctx (v.ctxAt a)
    let off := k.offset f.pa + 512 * d
    let n := beatRead (topkBytes f - 512 * d)
    let u := v.scan a i [(off, n)]
    let got := j.got ++ (u.cluster a.die a.phys).read off n
    topkBeat f a i j v =
      if d + 1 = j.beats then
        (u.file a (topkCommits f k (j.issued + (topkPlan k f (u.catOf i.tenant)).ends) got), j)
      else (u, { j with got := got }) := rfl

theorem topkBytes_le {f : TopkSlot} (h : topkBeats f = 1) : topkBytes f ≤ 512 := by
  unfold topkBeats at h
  unfold topkBytes
  by_cases short : f.kfmt = 1
  · rw [if_pos short] at h ⊢
    omega
  · rw [if_neg short] at h ⊢
    omega

/-! GATHER (R141, R142). -/

/-- The entries a GATHER reads from its bank. -/
def gatherEntries (f : GatherSlot) (c : Cluster) : List Word := Tab.getRun 0 c.xb (64 * f.xb) (f.gm1 + 1)

theorem gatherEntries_head (f : GatherSlot) (c : Cluster) : (gatherEntries f c).getD 0 0 = Tab.get 0 c.xb (64 * f.xb) := by
  simp [gatherEntries, Tab.getRun]

theorem State.SameInputs.gatherEntries_eq {s v : State} {a : Issue} (h : s.SameInputs v a) (f : GatherSlot) :
    gatherEntries f (v.cluster a.die a.phys) = gatherEntries f (s.cluster a.die a.phys) :=
  congrArg (Tab.getRun 0 · (64 * f.xb) (f.gm1 + 1)) h.xb

/-- A GATHER's first row, of an entry x: the row in the window, or zeros, counted. -/
def gatherCommits (f : GatherSlot) (k : Ctx) (due x : Nat) (row : List Byte) : List (Nat × Commit) :=
  if x < (k.param f.pn).toNat % 65536 then [(due, .spad (k.offset f.po) row)]
  else [(due, .spad (k.offset f.po) (List.replicate 512 0)), (due, .events f.vc { SelEvents.none_ with goor := 1 })]

/-! SCATTER (R144, R145). -/

/-- Beats on which a SCATTER reads its destination list. -/
def scatterLists (f : ScatterSlot) : Nat := (f.tm1 + 128) / 128

/-- A SCATTER has beats after its first. -/
theorem one_lt_scatterBeats (f : ScatterSlot) (cat writes : Nat) : 1 < scatterPhase f cat + writes := by
  unfold scatterPhase
  split <;> omega

/-- What a SCATTER decides from the bytes of its destination list. -/
def scatterOf (f : ScatterSlot) (k : Ctx) (bytes : List Byte) : ScatterAcc :=
  scatterAll (f.dm1 + 1) (f.cm1 + 1) (scatterShape k f).1 (scatterShape k f).2.2 (wordsOfBytes bytes)

theorem scatterLists_pos (f : ScatterSlot) : 0 < scatterLists f := by
  unfold scatterLists
  omega

/-- A list beat of a SCATTER, by the bytes it reads and what the last of them decides. -/
theorem scatterBeat_eq_of_list (f : ScatterSlot) (fill : List (Nat × Nat)) (a : Issue) (i : Issuer) (j : Task) (v : State)
    (listBeat : i.beat - j.issued < scatterLists f) :
    let d := i.beat - j.issued
    let k := j.ctx (v.ctxAt a)
    let off := k.offset f.pl + 512 * d
    let n := beatRead (4 * (f.tm1 + 1) - 512 * d)
    let u := v.scan a i [(off, n)]
    let got := j.got ++ (u.cluster a.die a.phys).read off n
    let r := scatterOf f k got
    scatterBeat f fill a i j v =
      if d + 1 = scatterLists f then
        (u.file a (scatterCommits f (k.offset f.pm) (j.issued + scatterPhase f (v.catOf i.tenant)) r),
          { j with work := .scatter f r.fill, got := [] })
      else (u, { j with got := got }) := if_pos listBeat

/-- On its issue beat a SCATTER reads its list. -/
theorem Issuer.firstTask_listBeat (i : Issuer) (k : Ctx) (n : Nat) (w : Work) (f : ScatterSlot) :
    i.beat - (i.firstTask k n w).issued < scatterLists f := by
  rw [Issuer.firstTask_issued, Nat.sub_self]
  exact scatterLists_pos f

/-! What the first beats do. -/

section
variable {s v : State} {a : Issue} (same : s.SameInputs v a) (clean : (s.cluster a.die a.phys).clean) (i : Issuer) (n : Nat)
  (w : Work)
include same clean

/-- A first key beat that others follow keeps the keys it reads. -/
theorem topkBeat_first_of_more (f : TopkSlot) (more : ¬ 1 = n) :
    let k := s.ctxAt a
    topkBeat f a i (i.firstTask k n w) v = (v.scan a i [(k.offset f.pa, beatRead (topkBytes f))],
      { i.firstTask k n w with
        got := (s.cluster a.die a.phys).read (k.offset f.pa) (beatRead (topkBytes f)) }) := by
  simp only [topkBeat_eq, Issuer.firstTask_issued, Issuer.firstTask_beats, Issuer.firstTask_got, Issuer.firstTask_ctx,
    Nat.sub_self, Nat.mul_zero, Nat.add_zero, Nat.sub_zero, Nat.zero_add, List.nil_append, if_neg more, same.ctxAt,
    same.read_scan clean]

/-- The only key beat of a TOPK files its results. -/
theorem topkBeat_first_of_only (f : TopkSlot) (only : 1 = n) :
    let k := s.ctxAt a
    let u := v.scan a i [(k.offset f.pa, beatRead (topkBytes f))]
    let got := (s.cluster a.die a.phys).read (k.offset f.pa) (beatRead (topkBytes f))
    topkBeat f a i (i.firstTask k n w) v =
      (u.file a (topkCommits f k (i.beat + (topkPlan k f (s.catOf i.tenant)).ends) got), i.firstTask k n w) := by
  simp only [topkBeat_eq, Issuer.firstTask_issued, Issuer.firstTask_beats, Issuer.firstTask_got, Issuer.firstTask_ctx,
    Nat.sub_self, Nat.mul_zero, Nat.add_zero, Nat.sub_zero, Nat.zero_add, List.nil_append, if_pos only, same.ctxAt,
    same.read_scan clean, (same.scan clean i _).catOf]

theorem gatherBeat_first (f : GatherSlot) :
    let k := s.ctxAt a
    let c := s.cluster a.die a.phys
    let x := (Tab.get 0 c.xb (64 * f.xb)).toNat
    let due := i.beat + if s.catOf i.tenant = 2 then 7 else 8
    ∃ u, gatherBeat f (gatherEntries f c) a i (i.firstTask k n w) v = (u, i.firstTask k n w) ∧
      v.Files u a (gatherCommits f k due x (c.read (k.offset f.pw + x * f.stride * 512) 512)) := by
  simp only [gatherBeat, gatherCommits, gatherEntries_head, Issuer.firstTask_issued, Issuer.firstTask_ctx, Nat.sub_self,
    Nat.zero_div, Nat.zero_mod, Nat.add_zero, Nat.mul_zero, eq_self, if_true, same.ctxAt, same.catOf]
  split
  next =>
    rw [same.read_scan clean]
    exact ⟨_, rfl, (v.scan_clean a i _ (same.clean clean)).files_file a _⟩
  next => exact ⟨_, rfl, (State.Alike.refl v).files_file a _⟩

/-- A first list beat that others follow keeps the destinations it reads. -/
theorem scatterBeat_first_of_more (f : ScatterSlot) (more : ¬ 1 = scatterLists f) :
    let k := s.ctxAt a
    scatterBeat f [] a i (i.firstTask k n w) v = (v.scan a i [(k.offset f.pl, beatRead (4 * (f.tm1 + 1)))],
      { i.firstTask k n w with
        got := (s.cluster a.die a.phys).read (k.offset f.pl) (beatRead (4 * (f.tm1 + 1))) }) := by
  simp only [scatterBeat_eq_of_list f [] a i _ v (i.firstTask_listBeat (s.ctxAt a) n w f), Issuer.firstTask_issued,
    Issuer.firstTask_got, Issuer.firstTask_ctx, Nat.sub_self, Nat.mul_zero, Nat.add_zero, Nat.sub_zero, Nat.zero_add,
    List.nil_append, if_neg more, same.ctxAt, same.read_scan clean]

/-- The only list beat of a SCATTER decides its entries. -/
theorem scatterBeat_first_of_only (f : ScatterSlot) (only : 1 = scatterLists f) :
    let k := s.ctxAt a
    let u := v.scan a i [(k.offset f.pl, beatRead (4 * (f.tm1 + 1)))]
    let r := scatterOf f k ((s.cluster a.die a.phys).read (k.offset f.pl) (beatRead (4 * (f.tm1 + 1))))
    scatterBeat f [] a i (i.firstTask k n w) v =
      (u.file a (scatterCommits f (k.offset f.pm) (i.beat + scatterPhase f (s.catOf i.tenant)) r),
        { i.firstTask k n w with work := .scatter f r.fill }) := by
  simp only [scatterBeat_eq_of_list f [] a i _ v (i.firstTask_listBeat (s.ctxAt a) n w f), Issuer.firstTask_issued,
    Issuer.firstTask_got, Issuer.firstTask_ctx, Nat.sub_self, Nat.mul_zero, Nat.add_zero, Nat.sub_zero, Nat.zero_add,
    List.nil_append, if_pos only, same.ctxAt, same.catOf, same.read_scan clean]

end

/-! The slots whose checks pass, in a cluster without errors. -/

section
variable {a : Issue} {s : State} {i : Issuer} (hi : s.issuer a = some i) (clean : (s.cluster a.die a.phys).clean)
include hi clean

/-- A TOPK of several key beats holds the keys of the first. -/
theorem execTopk_starts {f : TopkSlot} (hp : s.planFails a i (topkPlan (s.ctxAt a) f (s.catOf i.tenant)) = none)
    (more : 1 < topkBeats f) :
    ∃ t, exec (.topk a f) s = .next t ∧ s.Taken t a f.vc (topkBeats f) ∧
      s.Issued t a [] [{ i.firstTask (s.ctxAt a) (topkBeats f) (.topk f) with
        got := (s.cluster a.die a.phys).read ((s.ctxAt a).offset f.pa) (beatRead (topkBytes f)) }] :=
  State.selectionStart_runs hi hp rfl (if_neg (Nat.not_le_of_gt more)) fun v same =>
    ⟨_, topkBeat_first_of_more same clean i _ _ f (Nat.ne_of_lt more), (v.scan_clean a i _ (same.clean clean)).files a⟩

/-- A TOPK of one key beat puts its results on their way. -/
theorem execTopk_ends {f : TopkSlot} (hp : s.planFails a i (topkPlan (s.ctxAt a) f (s.catOf i.tenant)) = none)
    (only : topkBeats f = 1) :
    ∃ t, exec (.topk a f) s = .next t ∧ s.Taken t a f.vc (topkBeats f) ∧
      s.Issued t a (topkCommits f (s.ctxAt a) (i.beat + (topkPlan (s.ctxAt a) f (s.catOf i.tenant)).ends)
        ((s.cluster a.die a.phys).read ((s.ctxAt a).offset f.pa) (topkBytes f))) [] := by
  rw [← beatRead_of_le (topkBytes_le only)]
  exact State.selectionStart_runs hi hp rfl (if_pos (Nat.le_of_eq only)) fun v same =>
    ⟨_, topkBeat_first_of_only same clean i _ _ f only.symm,
      (v.scan_clean a i _ (same.clean clean)).files_file a _⟩

theorem execIxld_runs {f : IxldSlot} (hp : s.planFails a i (ixldPlan (s.ctxAt a) f (s.catOf i.tenant)) = none) :
    let due := i.beat + (ixldPlan (s.ctxAt a) f (s.catOf i.tenant)).ends
    let off := (s.ctxAt a).offset f.pa
    ∃ t, exec (.ixld a f) s = .next t ∧ s.Taken t a f.vc 1 ∧
      s.Issued t a [(due, .index f.xb (wordsOfBytes ((s.cluster a.die a.phys).read off 256)))] [] := by
  intro due off
  refine State.selectionSlot_runs (fun v => (v.scan a i [(off, 256)]).file a
    [(due, .index f.xb (wordsOfBytes (((v.scan a i [(off, 256)]).cluster a.die a.phys).read off 256)))]) hi hp rfl
    fun v same => ?_
  exact same.scan_files clean i off 256 fun bytes => [(due, .index f.xb (wordsOfBytes bytes))]

/-- A GATHER reads its entries on its issue beat (R146) and files its first row. -/
theorem execGather_runs {f : GatherSlot} (hp : s.planFails a i (gatherPlan (s.ctxAt a) f (s.catOf i.tenant)) = none) :
    let k := s.ctxAt a
    let c := s.cluster a.die a.phys
    let beats := (f.gm1 + 1) * (f.nbm1 + 1)
    let x := (Tab.get 0 c.xb (64 * f.xb)).toNat
    let due := i.beat + if s.catOf i.tenant = 2 then 7 else 8
    ∃ t, exec (.gather a f) s = .next t ∧ s.Taken t a f.vc beats ∧
      s.Issued t a (gatherCommits f k due x (c.read (k.offset f.pw + x * f.stride * 512) 512))
        (i.task k beats (.gather f (gatherEntries f c)) []) := by
  refine State.selectionStart_runs hi hp ?_ rfl fun v same => gatherBeat_first same clean i _ _ f
  rw [State.guarded_passes s a i _ _ hp, State.guarded_passes s a i _ _ hp,
    ← (s.takePorts_sameInputs a (gatherPlan (s.ctxAt a) f (s.catOf i.tenant))).gatherEntries_eq f]
  rfl

/-- A SCATTER of several list beats holds the destinations of the first. -/
theorem execScatter_starts {f : ScatterSlot} (hp : s.planFails a i (scatterPlan (s.ctxAt a) f (s.catOf i.tenant)) = none)
    (more : 128 ≤ f.tm1) :
    let k := s.ctxAt a
    let beats := scatterPhase f (s.catOf i.tenant) + scatterSlots k f * (scatterShape k f).2.1
    ∃ t, exec (.scatter a f) s = .next t ∧ s.Taken t a f.vc beats ∧
      s.Issued t a [] [{ i.firstTask k beats (.scatter f []) with
        got := (s.cluster a.die a.phys).read (k.offset f.pl) (beatRead (4 * (f.tm1 + 1))) }] := by
  have lists : ¬ 1 = scatterLists f := by unfold scatterLists; omega
  exact State.selectionStart_runs hi hp rfl (if_neg (Nat.not_le_of_gt (one_lt_scatterBeats ..))) fun v same =>
    ⟨_, scatterBeat_first_of_more same clean i _ _ f lists, (v.scan_clean a i _ (same.clean clean)).files a⟩

/-- A SCATTER of one list beat decides its entries on that beat. -/
theorem execScatter_decides {f : ScatterSlot} (hp : s.planFails a i (scatterPlan (s.ctxAt a) f (s.catOf i.tenant)) = none)
    (only : f.tm1 < 128) :
    let k := s.ctxAt a
    let cat := s.catOf i.tenant
    let beats := scatterPhase f cat + scatterSlots k f * (scatterShape k f).2.1
    let r := scatterOf f k ((s.cluster a.die a.phys).read (k.offset f.pl) (4 * (f.tm1 + 1)))
    ∃ t, exec (.scatter a f) s = .next t ∧ s.Taken t a f.vc beats ∧
      s.Issued t a (scatterCommits f (k.offset f.pm) (i.beat + scatterPhase f cat) r)
        [{ i.firstTask k beats (.scatter f []) with work := .scatter f r.fill }] := by
  have lists : 1 = scatterLists f := by unfold scatterLists; omega
  rw [← beatRead_of_le (len := 4 * (f.tm1 + 1)) (by omega)]
  exact State.selectionStart_runs hi hp rfl (if_neg (Nat.not_le_of_gt (one_lt_scatterBeats ..))) fun v same =>
    ⟨_, scatterBeat_first_of_only same clean i _ _ f lists,
      (v.scan_clean a i _ (same.clean clean)).files_file a _⟩

end

/-- Settles O15: each operation is one selection slot; what its first beat files is what the rule gives. -/
theorem selectionSlotsRun : Obligations.SelectionSlotsRun := by
  intro a s i hi clean
  refine ⟨fun f hp more => ?_, fun f hp only => ?_, fun f hp => ?_, fun f hp => ?_, fun f hp more => ?_,
    fun f hp only => ?_⟩
  · obtain ⟨t, runs, taken, commits, jobs⟩ := execTopk_starts hi clean hp more
    exact ⟨t, runs, taken, by simpa using commits, by simp [jobs]⟩
  · obtain ⟨t, runs, taken, commits, jobs⟩ := execTopk_ends hi clean hp only
    refine ⟨t, runs, only ▸ taken, by simpa using jobs, ?_⟩
    rw [commits]
    exact List.mem_append_right _ (List.mem_append_left _ List.mem_cons_self)
  · exact execIxld_runs hi clean hp
  · obtain ⟨t, runs, taken, commits, -⟩ := execGather_runs hi clean hp
    refine ⟨t, runs, taken, fun inRange => ?_, fun outOfRange => ?_⟩
    · rw [commits, gatherCommits, if_pos inRange]
    · rw [commits, gatherCommits, if_neg (Nat.not_lt_of_ge outOfRange)]
  · obtain ⟨t, runs, taken, commits, jobs⟩ := execScatter_starts hi clean hp more
    exact ⟨t, runs, taken, by simpa using commits, by simp [jobs]⟩
  · obtain ⟨t, runs, taken, commits, jobs⟩ := execScatter_decides hi clean hp only
    exact ⟨t, runs, taken, commits, by simp [jobs]⟩

end Sys2Proof.Machine
end
